-- ==== Sys2Proof/Word.lean ====
section
/-! DEFINITION. The word types of FCODEC (spec/00_scope.md R10: all values are unsigned, bit 0 is the least significant). -/

namespace Sys2Proof

/-- A byte of a record, a buffer or a wire frame (spec/20_memory.md R62). -/
abbrev Byte := BitVec 8

/-- A 16-bit value: the checksum and its accumulator (spec/41_crc.md R111). -/
abbrev Half := BitVec 16

/-- A 32-bit value: a register read, a tick value, a pin bitmap (spec/10_state.md R34, R36, R37). -/
abbrev Word := BitVec 32

end Sys2Proof
end

