-- ==== Sys2Proof/Config.lean ====
section
/-! DEFINITION. The implementation parameters of spec/00_scope.md R7, their constraints, their defaults, and the instance
that `State.reset` is built with. -/

namespace Sys2Proof

/-- The parameters of spec/00_scope.md R7 that no formula fixes. "A parameter is configuration, fixed for the life of a model
instance; no step writes it." -/
structure Params where
  /-- `P_MAX_SHORT`: largest short-frame payload, bytes. -/
  maxShort : Nat
  /-- `P_MAX_EXT`: largest extended-frame payload, bytes. -/
  maxExt : Nat
  /-- `P_RX_DATA_MARKER`: the byte at offset 1 that marks a data frame on receive. -/
  rxDataMarker : Byte
  /-- `P_T_GAP`: inter-byte silence that closes a receive window, ticks. OPEN. -/
  tGap : Nat
  /-- `P_T_DEB`: debounce confirmation time, ticks. OPEN. -/
  tDeb : Nat
  /-- `P_TICK_PERIOD`: real time of one tick, in seconds. OPEN; read by no rule (log entry 15). -/
  tickPeriod : Rat
  /-- `P_DEB_PRESENT`: the optional DEB sub-block is built. -/
  debPresent : Bool
  /-- `P_N_PINS`: number of debounced pins. OPEN. -/
  nPins : Nat
  /-- `P_DEB_INIT_LEVEL`: level bitmap and pin levels at reset, bit p for pin p. -/
  debInitLevel : Word
  /-- `P_DEB_RESTART_ON_BOUNCE`: a bounce edge also restarts the shared timer. -/
  debRestartOnBounce : Bool
deriving DecidableEq, Repr

/-- `P_RX_CAP`, "fixed by the formula" `P_MAX_SHORT + 5` (R7). -/
def Params.rxCap (p : Params) : Nat := p.maxShort + 5

/-- `P_TX_CAP`, "fixed by the formula" `P_MAX_EXT + 4` (R7). -/
def Params.txCap (p : Params) : Nat := p.maxExt + 4

/-- R7's nominal tick count of a duration: `ceil(duration / P_TICK_PERIOD)`, both in seconds. -/
def Params.nominalTicks (p : Params) (duration : Rat) : Nat := (duration / p.tickPeriod).ceil.toNat

/-- The nominal `P_T_GAP`, `ceil(300 µs / P_TICK_PERIOD)` (R7). The source writes its durations with "~", so no definition
takes `tGap` to be this figure. -/
def Params.nominalTGap (p : Params) : Nat := p.nominalTicks (300 / 1000000)

/-- The nominal `P_T_DEB`, `ceil(2.5 ms / P_TICK_PERIOD)` (R7); no definition takes `tDeb` to be this figure. -/
def Params.nominalTDeb (p : Params) : Nat := p.nominalTicks (2500 / 1000000)

/-- The constraint column of R7. -/
abbrev Params.wf (p : Params) : Prop :=
  p.maxShort ≤ 255 ∧ p.maxExt ≤ 65535 ∧
  (p.rxDataMarker ≠ 0x41#8 ∧ p.rxDataMarker ≠ 0x43#8) ∧
  (1 ≤ p.tGap ∧ p.tGap < 2 ^ 31) ∧ (1 ≤ p.tDeb ∧ p.tDeb < 2 ^ 31) ∧
  0 < p.tickPeriod ∧ (1 ≤ p.nPins ∧ p.nPins ≤ 32) ∧ p.debInitLevel.toNat < 2 ^ p.nPins

/-- The default column of R7, with the four OPEN parameters as arguments. -/
def Config.defaults (tGap tDeb : Nat) (tickPeriod : Rat) (nPins : Nat) : Params where
  maxShort := 242
  maxExt := 4800
  rxDataMarker := 0x4E#8
  tGap := tGap
  tDeb := tDeb
  tickPeriod := tickPeriod
  debPresent := true
  nPins := nPins
  debInitLevel := BitVec.ofNat 32 (2 ^ nPins - 1)
  debRestartOnBounce := true

/-- The instance `State.reset` is built with: R7's defaults, and for the OPEN parameters the test values of
spec/95_test_vectors.md ("P_T_GAP = 3, P_T_DEB = 5 and P_N_PINS = 4") and a tick of 100 µs, for which the spec has no value.
DESIGN CHOICE, unsafe where a claim leans on these four numbers: log entry 4. -/
def Config.params : Params := Config.defaults 3 5 (mkRat 1 10000) 4

end Sys2Proof
end

