-- ==== Sys2Proof/Machine/State.lean ====
section
/-! DEFINITION. The state of FCODEC (spec/10_state.md R22), its reset (R41), and the reasons a step can stop. -/

namespace Sys2Proof.Machine

/-- The command status codes of spec/60_exceptions.md R252; codes 9 to 15 are "reserved and never produced" (R38). -/
inductive CmdStatus where
  | ok | encLen | extHdr | extSeq | extOvf | extNotReady | badReg | badIndex | badOpcode
deriving DecidableEq, Repr

/-- The result codes of spec/60_exceptions.md R251; codes 7 to 15 are "reserved and never produced" (R38). -/
inductive ResCode where
  | none | frameOk | ackRx | nackRx | crcErr | lenErr | malformed
deriving DecidableEq, Repr

/-- The kinds of `tx_kind` (spec/10_state.md R22); 5 to 7 are reserved (R38). -/
inductive TxKind where
  | none | short | ext | ack | nack
deriving DecidableEq, Repr

/-- The output events of spec/30_encoding.md R95. Kinds and codes stand as their named values (log entry 18). -/
inductive Output where
  /-- `OUT.READ(v)`. -/
  | read (v : Word)
  /-- `OUT.TXREADY(kind, len)`. -/
  | txReady (kind : TxKind) (len : Half)
  /-- `OUT.RXRESULT(code)`. -/
  | rxResult (code : ResCode)
  /-- `OUT.NACKREQ`. -/
  | nackReq
  /-- `OUT.EXTDONE(len)`. -/
  | extDone (len : Half)
  /-- `OUT.BUTTON(p, pressed)`. -/
  | button (pin : Nat) (pressed : Bool)
deriving DecidableEq, Repr

/-- A byte buffer of spec/20_memory.md R61: (index, byte) pairs, indices strictly rising. An index that is not listed has no
value, which is what every byte of a buffer has after reset (spec/10_state.md R41). Log entry 6. -/
abbrev Memory := List Host.Cell

/-- The canonical form: indices strictly rising, so that equal buffers are equal lists. -/
abbrev Memory.wf (m : Memory) : Prop := m.Pairwise (fun a b => a.1 < b.1)

/-- The complete state of FCODEC (spec/10_state.md R22), in the spec's order and under the spec's names, with three fields the
host's interface needs beside it: the configuration, the records not yet consumed and the outputs emitted (log entries 1, 2
and 4; R40 says these are not state of the block). -/
structure State where
  /-- The configuration (spec/00_scope.md R7). No step writes it. -/
  params : Params
  /-- The bytes of the records presented and not yet consumed: what the position in the record stream (R21) leaves ahead. -/
  stream : List Byte
  /-- Every output event emitted so far, oldest first (spec/70_reset_and_hazards.md R295). -/
  outputs : List Output
  /-- `crc`, the CRC unit's accumulator (R23). -/
  crc : Half
  /-- `cmd_status`, the outcome of the most recent command (R24). -/
  cmdStatus : CmdStatus
  /-- `rx_win`, the reassembly window's bytes (R25). -/
  rxWin : Memory
  /-- `rx_cnt`, how many bytes the window holds (R25). -/
  rxCnt : Nat
  /-- `rx_ovf`, a byte arrived at a full window (R26). -/
  rxOvf : Bool
  /-- `rx_last`, the tick of the most recent byte (R27). -/
  rxLast : Word
  /-- `res_valid`, a result is latched and not consumed (R29). -/
  resValid : Bool
  /-- `res_code`, the outcome of the last decode (R28). -/
  resCode : ResCode
  /-- `res_lost`, an unconsumed result was overwritten (R29). -/
  resLost : Bool
  /-- `nack_req`, a negative acknowledgement is owed (R30). -/
  nackReq : Bool
  /-- `res_id` (R28). -/
  resId : Byte
  /-- `res_type` (R28). -/
  resType : Byte
  /-- `res_len` (R28). -/
  resLen : Byte
  /-- `res_crc_rx`, the received checksum (R28). -/
  resCrcRx : Half
  /-- `res_crc_calc`, the computed checksum (R28). -/
  resCrcCalc : Half
  /-- `res_n`, the length of the decoded byte sequence (R28). -/
  resN : Nat
  /-- `res_payload` (R28). -/
  resPayload : Memory
  /-- `tx_buf`, the last built sequence (R31). -/
  txBuf : Memory
  /-- `tx_len` (R31). -/
  txLen : Nat
  /-- `tx_kind` (R31). -/
  txKind : TxKind
  /-- `ext_buf`, the assembled payload so far (R32). -/
  extBuf : Memory
  /-- `ext_asm`, an assembly is in progress (R32). -/
  extAsm : Bool
  /-- `ext_done`, a complete payload is held (R33). -/
  extDone : Bool
  /-- `ext_total`, the assembly's number of segments (R32). -/
  extTotal : Byte
  /-- `ext_next`, the next accepted segment number (R32). -/
  extNext : Nat
  /-- `ext_len` (R32). -/
  extLen : Nat
  /-- `now`, the tick counter (R34). -/
  now : Word
  /-- `deb_level`, the level bitmap (R36; bits from `P_N_PINS` up are 0, log entry 10). -/
  debLevel : Word
  /-- `deb_pend`, the transition bitmap (R36). -/
  debPend : Word
  /-- `deb_run`, the shared confirmation timer is armed (R36). -/
  debRun : Bool
  /-- `deb_start`, the tick the timer was last started at (R36). -/
  debStart : Word
  /-- `pin_phys`, each pin's level as last reported (R36). -/
  pinPhys : Word
deriving DecidableEq, Repr

/-- Why the machine stops with a fault. FCODEC has no traps (spec/60_exceptions.md R250); this one stands for something
the spec says never happens. -/
inductive Fault where
  /-- A read of a buffer byte that has no value. Raised by the window close (`EV.TICK`), `ENC.EXTA` and `RD.BUF`, only in
  states no run reaches (spec/20_memory.md R63). Safe: the machine stops where the spec gives no value (log entry 6). -/
  | bufferByteNoValue
deriving DecidableEq, Repr

/-- Why a record has no step: `refuse` of spec/00_scope.md R12. Every reason but the first is one the spec names. -/
inductive Refusal where
  /-- An instruction with no meaning in this model. Raised by `exec`'s refused arms. Safe. -/
  | notModelled (mnemonic : String)
  /-- The stream ends inside a record (spec/30_encoding.md R89). Raised by the fetch. Safe: the spec refuses it. -/
  | truncatedRecord
  /-- A reserved event opcode (spec/30_encoding.md R88). Raised by the fetch. Safe: the spec refuses it. -/
  | reservedEvent (op : Byte)
  /-- `EV.EDGE` with a level above 1 (spec/30_encoding.md R89). Raised by the fetch. Safe: the spec refuses it. -/
  | edgeLevel (b : Byte)
  /-- `EV.EDGE` with a pin at or above `P_N_PINS` (spec/30_encoding.md R89). Raised by `EV.EDGE`. Safe: the spec refuses it. -/
  | edgePin (pin : Byte)
  /-- `EV.EDGE` while DEB is not built (spec/00_scope.md R9). Raised by `EV.EDGE`. Safe: the spec refuses it. -/
  | debAbsent
deriving DecidableEq, Repr

/-- The reset state for any parameters: every element at the value of spec/10_state.md R41, which "at power-up" (R281) and
`EV.RESET` (R280) share. No record is presented and nothing has been emitted. -/
def State.resetWith (p : Params) : State where
  params := p
  stream := []
  outputs := []
  crc := 0x0000#16
  cmdStatus := .ok
  rxWin := []
  rxCnt := 0
  rxOvf := false
  rxLast := 0#32
  resValid := false
  resCode := .none
  resLost := false
  nackReq := false
  resId := 0x00#8
  resType := 0x00#8
  resLen := 0x00#8
  resCrcRx := 0x0000#16
  resCrcCalc := 0x0000#16
  resN := 0
  resPayload := []
  txBuf := []
  txLen := 0
  txKind := .none
  extBuf := []
  extAsm := false
  extDone := false
  extTotal := 0x00#8
  extNext := 0
  extLen := 0
  now := 0#32
  debLevel := p.debInitLevel
  debPend := 0#32
  debRun := false
  debStart := 0#32
  pinPhys := p.debInitLevel

/-- The machine right after reset, for the instance of `Config.params` (log entry 4). -/
def State.reset : State := State.resetWith Config.params

end Sys2Proof.Machine
end

