-- ==== Sys2Proof/Machine/Ops.lean ====
section
/-! DEFINITION. The operations that the meanings share: reading and writing a buffer, emitting an output, ending a command
(spec/00_scope.md R12), and elapsed time. FCODEC takes no exceptions (spec/60_exceptions.md R250); a command's failure is
`fail`. -/

namespace Sys2Proof.Machine

/-- `buf[i]`: the byte at index `i`, none where it has no value. -/
def Memory.read : Memory → Nat → Option Byte
  | [], _ => none
  | (k, b) :: m, i => if k = i then some b else Memory.read m i

/-- `buf[i] <- b`. -/
def Memory.write : Memory → Nat → Byte → Memory
  | [], i, b => [(i, b)]
  | (k, c) :: m, i, b =>
    if i < k then (i, b) :: (k, c) :: m
    else if i = k then (i, b) :: m
    else (k, c) :: Memory.write m i b

/-- `for i = 0 to n-1: buf[base + i] <- bytes[i]`. -/
def Memory.writeBytes (m : Memory) (base : Nat) : List Byte → Memory
  | [] => m
  | b :: bs => Memory.writeBytes (m.write base b) (base + 1) bs

/-- `buf[base .. base + n - 1]`, none where one of these bytes has no value. -/
def Memory.readBytes (m : Memory) (base : Nat) : Nat → Option (List Byte)
  | 0 => some []
  | n + 1 =>
    match m.read base, Memory.readBytes m (base + 1) n with
    | some b, some bs => some (b :: bs)
    | _, _ => none

/-- What a step can answer. -/
abbrev Result := Host.Outcome State Fault Refusal

/-- Goes on with the next state; a fault or a refusal stands. -/
def andThen (r : Result) (k : State → Result) : Result :=
  match r with
  | .next s => k s
  | .fault f => .fault f
  | .refused f => .refused f

/-- `emit E` (R12): appends an output event. -/
def emit (e : Output) (s : State) : State := { s with outputs := s.outputs ++ [e] }

/-- `cmd_status <- C`. -/
def setStatus (c : CmdStatus) (s : State) : State := { s with cmdStatus := c }

/-- `cmd_status <- OK` at the end of a command that completes (spec/10_state.md R24). -/
def complete (s : State) : Result := .next (setStatus .ok s)

/-- `fail C` (R12): "write `cmd_status <- C` and end the step; no other state element changes". -/
def fail (c : CmdStatus) (s : State) : Result := .next (setStatus c s)

/-- `now -32 t`: ticks since `t`, modulo 2^32 (R10, spec/10_state.md R34). -/
def elapsed (s : State) (t : Word) : Nat := (s.now - t).toNat

/-- The low 16 bits of a length, as an output event or a wire field carries it (spec/30_encoding.md R91, R95). -/
def len16 (n : Nat) : Half := BitVec.ofNat 16 n

/-- `v[7:0]` of a 16-bit value. -/
def lowByte (v : Half) : Byte := v.extractLsb' 0 8

/-- `v[15:8]` of a 16-bit value. -/
def highByte (v : Half) : Byte := v.extractLsb' 8 8

end Sys2Proof.Machine
end

