-- ==== Sys2Proof/Machine/Assembler.lean ====
section
/-! DEFINITION. The extended-frame assembler (spec/44_ext_assembler.md). -/

namespace Sys2Proof.Machine

/-- `EXT_ABORT` (R182): discard any assembly; the bytes of `ext_buf` stay but cannot be read. -/
def extAbort (s : State) : State :=
  { s with extAsm := false, extDone := false, extTotal := 0x00#8, extNext := 0, extLen := 0 }

/-- The segment pair is impossible: `T = 0 or C = 0 or C > T` (R181). -/
def badHeader (total current : Byte) : Bool :=
  decide (total.toNat = 0 ∨ current.toNat = 0 ∨ current.toNat > total.toNat)

/-- A segment other than the first that does not continue the assembly in progress (R181). -/
def badSequence (total current : Byte) (s : State) : Bool :=
  decide (current.toNat ≠ 1 ∧ (s.extAsm = false ∨ current.toNat ≠ s.extNext ∨ total ≠ s.extTotal))

/-- The first segment (re)starts the assembly (R181). -/
def startAssembly (total current : Byte) (s : State) : State :=
  if current.toNat = 1 then { s with extLen := 0, extTotal := total, extDone := false } else s

/-- The segment's bytes are appended to the payload (R181). -/
def appendSegment (d : List Byte) (s : State) : State :=
  { s with extBuf := s.extBuf.writeBytes s.extLen d, extLen := s.extLen + d.length }

/-- After the bytes: the last segment completes the payload, any other waits for its successor (R181). -/
def advanceAssembly (total current : Byte) (s : State) : State :=
  if current = total then
    emit (.extDone (len16 s.extLen)) { s with extAsm := false, extDone := true, extNext := 0 }
  else { s with extAsm := true, extNext := current.toNat + 1 }

/-- `EXT.SEG total, current, [d]` (R181), its failures in the order of spec/60_exceptions.md R255. -/
def execExtSeg (total current : Byte) (d : List Byte) (s : State) : Result :=
  if badHeader total current then fail .extHdr (extAbort s)
  else if badSequence total current s then fail .extSeq (extAbort s)
  else
    let t := startAssembly total current s
    if t.extLen + d.length > s.params.maxExt then fail .extOvf (extAbort t)
    else complete (advanceAssembly total current (appendSegment d t))

end Sys2Proof.Machine
end

