-- ==== Sys2Proof/Machine/Crc.lean ====
section
/-! DEFINITION. The checksum and the CRC unit (spec/41_crc.md). -/

namespace Sys2Proof.Machine

/-- One bit of the reflected CRC: shift right, and XOR in 0xA001 when the bit shifted out is 1 (R111). -/
def crcBit (c : Half) : Half := if c.getLsbD 0 then (c >>> 1) ^^^ 0xA001#16 else c >>> 1

/-- `crc16_update(c, b)` (R111). -/
def crc16Update (c : Half) (b : Byte) : Half :=
  crcBit (crcBit (crcBit (crcBit (crcBit (crcBit (crcBit (crcBit (c ^^^ b.setWidth 16))))))))

/-- The bytes of `s` folded into `c`, in order (R111, R114). -/
def crcFold (c : Half) (s : List Byte) : Half := s.foldl crc16Update c

/-- `CRC16(s)` (R111): initial value 0, no final XOR. -/
def crc16 (s : List Byte) : Half := crcFold 0x0000#16 s

/-- `CRC.CLR` (R112). -/
def execCrcClr (s : State) : Result := complete { s with crc := 0x0000#16 }

/-- `CRC.BYTE a` (R113). -/
def execCrcByte (a : Byte) (s : State) : Result := complete { s with crc := crc16Update s.crc a }

/-- `CRC.BLK [d]` (R114). -/
def execCrcBlk (d : List Byte) (s : State) : Result := complete { s with crc := crcFold s.crc d }

end Sys2Proof.Machine
end

