-- ==== Sys2Proof/Machine/Flags.lean ====
section
/-! DEFINITION. The numeric codes of the status fields, and the status registers they are read through
(spec/10_state.md R22, R37; spec/60_exceptions.md R251, R252). FCODEC has no arithmetic condition codes (R35). -/

namespace Sys2Proof.Machine

/-- The 4-bit value of a command status (spec/60_exceptions.md R252). -/
def statusCode : CmdStatus → BitVec 4
  | .ok => 0
  | .encLen => 1
  | .extHdr => 2
  | .extSeq => 3
  | .extOvf => 4
  | .extNotReady => 5
  | .badReg => 6
  | .badIndex => 7
  | .badOpcode => 8

/-- The 4-bit value of a result code (spec/60_exceptions.md R251). -/
def resultCode : ResCode → BitVec 4
  | .none => 0
  | .frameOk => 1
  | .ackRx => 2
  | .nackRx => 3
  | .crcErr => 4
  | .lenErr => 5
  | .malformed => 6

/-- The 3-bit value of `tx_kind` (spec/10_state.md R22). -/
def kindCode : TxKind → BitVec 3
  | .none => 0
  | .short => 1
  | .ext => 2
  | .ack => 3
  | .nack => 4

/-- A one-bit field at bit `i` of a register. -/
def flagAt (b : Bool) (i : Nat) : Word := (BitVec.ofBool b).setWidth 32 <<< i

/-- Register 0x02, RES_STATUS: `res_code | res_valid << 4 | res_lost << 5 | nack_req << 6` (spec/46_readout.md R231). -/
def resStatusReg (s : State) : Word :=
  (resultCode s.resCode).setWidth 32 ||| flagAt s.resValid 4 ||| flagAt s.resLost 5 ||| flagAt s.nackReq 6

/-- Register 0x09, RX_STATE: `rx_cnt | rx_ovf << 9` (spec/46_readout.md R231). -/
def rxStateReg (s : State) : Word := (BitVec.ofNat 9 s.rxCnt).setWidth 32 ||| flagAt s.rxOvf 9

/-- Register 0x0D, EXT_STATUS: `ext_asm | ext_done << 1` (spec/46_readout.md R231). -/
def extStatusReg (s : State) : Word := flagAt s.extAsm 0 ||| flagAt s.extDone 1

end Sys2Proof.Machine
end

