-- ==== Sys2Proof/Machine/Operands.lean ====
section
/-! DEFINITION. What an operand selects: a register by number (spec/10_state.md R37), a buffer by selector
(spec/46_readout.md R232), a pin of a bitmap by number (spec/45_debounce.md R200). -/

namespace Sys2Proof.Machine

/-- `REG(r)`: register `r` assembled from its fields, every bit outside them 0 (spec/10_state.md R37); none for a reserved
number, which 0x12 to 0x16 are when DEB is not built (spec/46_readout.md R231). -/
def register (s : State) (r : Byte) : Option Word :=
  if r.toNat > 0x16 ∨ (s.params.debPresent = false ∧ r.toNat ≥ 0x12) then none
  else
    match r.toNat with
    | 0x00 => some (s.crc.setWidth 32)
    | 0x01 => some ((statusCode s.cmdStatus).setWidth 32)
    | 0x02 => some (resStatusReg s)
    | 0x03 => some (s.resId.setWidth 32)
    | 0x04 => some (s.resType.setWidth 32)
    | 0x05 => some (s.resLen.setWidth 32)
    | 0x06 => some (s.resCrcRx.setWidth 32)
    | 0x07 => some (s.resCrcCalc.setWidth 32)
    | 0x08 => some ((BitVec.ofNat 16 s.resN).setWidth 32)
    | 0x09 => some (rxStateReg s)
    | 0x0A => some s.rxLast
    | 0x0B => some ((BitVec.ofNat 16 s.txLen).setWidth 32)
    | 0x0C => some ((kindCode s.txKind).setWidth 32)
    | 0x0D => some (extStatusReg s)
    | 0x0E => some (s.extTotal.setWidth 32)
    | 0x0F => some ((BitVec.ofNat 9 s.extNext).setWidth 32)
    | 0x10 => some ((BitVec.ofNat 16 s.extLen).setWidth 32)
    | 0x11 => some s.now
    | 0x12 => some s.debLevel
    | 0x13 => some s.debPend
    | 0x14 => some (flagAt s.debRun 0)
    | 0x15 => some s.debStart
    | 0x16 => some s.pinPhys
    | _ => none

/-- The buffer of a selector, with how many of its bytes may be read (spec/20_memory.md R61, spec/46_readout.md R232): none
of `res_payload` unless the latched result is `FRAME_OK`. -/
def bufferOf (s : State) (sel : Byte) : Option (Memory × Nat) :=
  match sel.toNat with
  | 0 => some (s.resPayload, if s.resCode = .frameOk then s.resLen.toNat else 0)
  | 1 => some (s.txBuf, s.txLen)
  | 2 => some (s.extBuf, s.extLen)
  | 3 => some (s.rxWin, s.rxCnt)
  | _ => none

/-- Bit `p` of a pin bitmap. -/
def pinBit (v : Word) (p : Nat) : Bool := v.getLsbD p

/-- A pin bitmap with bit `p` set to `b`. -/
def setPin (v : Word) (p : Nat) (b : Bool) : Word :=
  if b then v ||| (1#32 <<< p) else v &&& ~~~(1#32 <<< p)

end Sys2Proof.Machine
end

