-- ==== Sys2Proof/Machine/Debounce.lean ====
section
/-! DEFINITION. The debounce engine DEB (spec/45_debounce.md). -/

namespace Sys2Proof.Machine

/-- `TIMER_RESTART` (R202): cancel and rearm the shared timer. -/
def timerRestart (s : State) : State := { s with debRun := true, debStart := s.now }

/-- `deb_run <- 0`: the timer is single-shot (R203). -/
def timerStop (s : State) : State := { s with debRun := false }

/-- `pin_phys[p] <- level` (R201). -/
def setPhys (p : Nat) (level : Bool) (s : State) : State := { s with pinPhys := setPin s.pinPhys p level }

/-- `deb_level[p] <- level; deb_pend[p] <- 1`: the speculative capture (R201). -/
def capturePin (p : Nat) (level : Bool) (s : State) : State :=
  { s with debLevel := setPin s.debLevel p level, debPend := setPin s.debPend p true }

/-- `deb_pend[p] <- 0` (R201, R203). -/
def clearPend (p : Nat) (s : State) : State := { s with debPend := setPin s.debPend p false }

/-- An edge on a pin with no confirmation pending: capture its level, mark it pending, restart the timer (R201). -/
def captureEdge (p : Nat) (level : Bool) (s : State) : State := timerRestart (capturePin p level s)

/-- An edge on a pin whose confirmation is pending: a bounce; clear the pending bit, and restart the timer if the parameter
says so (R201). -/
def bounceEdge (p : Nat) (s : State) : State :=
  if s.params.debRestartOnBounce then timerRestart (clearPend p s) else clearPend p s

/-- `EV.EDGE p, level` (R201). Refused when DEB is not built or the pin does not exist (spec/30_encoding.md R89); an event
never writes `cmd_status`. -/
def execEvEdge (pin : Byte) (level : Bool) (s : State) : Result :=
  if s.params.debPresent = false then .refused .debAbsent
  else if pin.toNat ≥ s.params.nPins then .refused (.edgePin pin)
  else
    if pinBit s.debPend pin.toNat then .next (bounceEdge pin.toNat (setPhys pin.toNat level s))
    else .next (captureEdge pin.toNat level (setPhys pin.toNat level s))

/-- The event a pin gives at expiry, if any: pending, and its physical level still the captured one; pressed is the low level
(R203, R204). -/
def pinEvent (s : State) (p : Nat) : Option Output :=
  if pinBit s.debPend p ∧ pinBit s.pinPhys p = pinBit s.debLevel p then some (.button p (!pinBit s.debLevel p)) else none

/-- One turn of `DEB_FIRE`'s loop: pin `p` (R203). -/
def confirmPin (s : State) (p : Nat) : State :=
  if pinBit s.debPend p then clearPend p { s with outputs := s.outputs ++ (pinEvent s p).toList } else s

/-- `DEB_FIRE` (R203): every pin in ascending order, then the timer stops. -/
def debFire (s : State) : State :=
  timerStop ((List.range s.params.nPins).foldl confirmPin s)

end Sys2Proof.Machine
end

