-- ==== Sys2Proof/Machine/Encoder.lean ====
section
/-! DEFINITION. The frame encoder (spec/42_encoder.md). -/

namespace Sys2Proof.Machine

/-- `build_short(id, type, p)` (R131): id, type, length, payload, then the checksum of all these, high byte first
(spec/20_memory.md R64). -/
def buildShort (id ty : Byte) (p : List Byte) : List Byte :=
  let f := id :: ty :: BitVec.ofNat 8 p.length :: p
  f ++ [highByte (crc16 f), lowByte (crc16 f)]

/-- `build_ext(id, type, p)` (R132): id, type, length low byte first (spec/20_memory.md R65), payload, no checksum. -/
def buildExt (id ty : Byte) (p : List Byte) : List Byte :=
  id :: ty :: lowByte (len16 p.length) :: highByte (len16 p.length) :: p

/-- The ACK sequence (spec/30_encoding.md R92). -/
def ackBytes : List Byte := [0x41#8, 0x43#8, 0x4B#8]

/-- The NACK sequence (spec/30_encoding.md R92). -/
def nackBytes : List Byte := [0x4E#8, 0x41#8, 0x43#8, 0x4B#8]

/-- What every successful `ENC.*` does with the sequence `w` it built (R130): writes it to `tx_buf` from index 0, sets
`tx_len` and `tx_kind`, and announces it. -/
def transmit (kind : TxKind) (w : List Byte) (s : State) : State :=
  emit (.txReady kind (len16 w.length))
    { s with txBuf := s.txBuf.writeBytes 0 w, txLen := w.length, txKind := kind }

/-- `ENC.SHORT id, type, [d]` (R133). The second test is of the buffer the frame is written to, whose indices run from 0 to
`P_TX_CAP − 1` (spec/20_memory.md R61, R62): it holds only where `P_MAX_SHORT ≥ P_MAX_EXT`, and there a frame that has no room fails
as one that is too long does. DESIGN CHOICE: log entry 7. -/
def execEncShort (id ty : Byte) (d : List Byte) (s : State) : Result :=
  if d.length > s.params.maxShort then fail .encLen s
  else if d.length + 5 > s.params.txCap then fail .encLen s
  else complete (transmit .short (buildShort id ty d) s)

/-- `ENC.EXT id, type, [d]` (R134). -/
def execEncExt (id ty : Byte) (d : List Byte) (s : State) : Result :=
  if d.length > s.params.maxExt then fail .encLen s
  else complete (transmit .ext (buildExt id ty d) s)

/-- `ENC.EXTA id, type` (R135): the payload is `ext_buf[0..ext_len-1]`. -/
def execEncExta (id ty : Byte) (s : State) : Result :=
  if s.extDone = false then fail .extNotReady s
  else
    match s.extBuf.readBytes 0 s.extLen with
    | none => .fault .bufferByteNoValue
    | some p => complete (transmit .ext (buildExt id ty p) s)

/-- `ENC.ACK` (R136). -/
def execEncAck (s : State) : Result := complete (transmit .ack ackBytes s)

/-- `ENC.NACK` (R137): building the NACK also clears `nack_req`. -/
def execEncNack (s : State) : Result := complete (transmit .nack nackBytes { s with nackReq := false })

end Sys2Proof.Machine
end

