-- ==== Sys2Proof/Machine/Decoder.lean ====
section
/-! DEFINITION. The short-frame decoder, the result latch and the commands over them (spec/43_decoder.md R154 to R158). -/

namespace Sys2Proof.Machine

/-- The received checksum `{w[n-2], w[n-1]}`, high byte first (R155). -/
def receivedCrc (w : List Byte) : Half := w.getD (w.length - 2) 0 ++ w.getD (w.length - 1) 0

/-- `DECODE_SHORT(w, n)` (R155): the code, the received and the computed checksum. The checksum is checked before the
length field. -/
def decodeShort (p : Params) (w : List Byte) : ResCode × Half × Half :=
  if w.length < 5 then (.lenErr, 0x0000#16, 0x0000#16)
  else
    let c := crc16 (w.take (w.length - 2))
    let rx := receivedCrc w
    let len := (w.getD 2 0).toNat
    if c ≠ rx then (.crcErr, rx, c)
    else if len > p.maxShort ∨ w.length ≠ len + 5 then (.lenErr, rx, c)
    else (.frameOk, rx, c)

/-- `CLASSIFY(w, n, ovf)` (R154): a data frame by its byte at offset 1, else a whole ACK or NACK, else malformed. -/
def classify (p : Params) (w : List Byte) (ovf : Bool) : ResCode × Half × Half :=
  if w[1]? = some p.rxDataMarker then
    if ovf then (.lenErr, 0x0000#16, 0x0000#16) else decodeShort p w
  else if ovf = false ∧ w = ackBytes then (.ackRx, 0x0000#16, 0x0000#16)
  else if ovf = false ∧ w = nackBytes then (.nackRx, 0x0000#16, 0x0000#16)
  else (.malformed, 0x0000#16, 0x0000#16)

/-- The output events of `LATCH`: the result, then for a checksum mismatch the NACK request (R156). -/
def latchOutputs (code : ResCode) : List Output :=
  if code = .crcErr then [.rxResult code, .nackReq] else [.rxResult code]

/-- `LATCH(code, w, n, crc_rx, crc_calc)` (R156). -/
def latch (w : List Byte) (r : ResCode × Half × Half) (s : State) : State :=
  { s with
    resLost := s.resLost || s.resValid
    resValid := true
    resCode := r.1
    resN := w.length
    resId := w.getD 0 0
    resType := w.getD 1 0
    resLen := w.getD 2 0
    resCrcRx := r.2.1
    resCrcCalc := r.2.2
    resPayload :=
      if r.1 = .frameOk then s.resPayload.writeBytes 0 ((w.drop 3).take (w.getD 2 0).toNat) else s.resPayload
    nackReq := s.nackReq || decide (r.1 = .crcErr)
    outputs := s.outputs ++ latchOutputs r.1 }

/-- `DEC.SHORT [d]` (R157): "`cmd_status <- OK` even when the frame is rejected". -/
def execDecShort (d : List Byte) (s : State) : Result := complete (latch d (decodeShort s.params d) s)

/-- `RX.CLR` (R158). -/
def execRxClr (s : State) : Result := complete { s with resValid := false, resLost := false }

end Sys2Proof.Machine
end

