-- ==== Sys2Proof/Machine/Readout.lean ====
section
/-! DEFINITION. The read-out commands (spec/46_readout.md). A read outputs a value of the state as it was when the record
began and writes only `cmd_status` (R230). -/

namespace Sys2Proof.Machine

/-- `RD.REG r` (R231). -/
def execRdReg (r : Byte) (s : State) : Result :=
  match register s r with
  | none => fail .badReg s
  | some v => complete (emit (.read v) s)

/-- `RD.BUF sel, idx` (R232). -/
def execRdBuf (sel : Byte) (idx : Half) (s : State) : Result :=
  match bufferOf s sel with
  | none => fail .badReg s
  | some (m, len) =>
    if idx.toNat < len then
      match m.read idx.toNat with
      | none => .fault .bufferByteNoValue
      | some b => complete (emit (.read (b.setWidth 32)) s)
    else fail .badIndex s

end Sys2Proof.Machine
end

