-- ==== Sys2Proof/Machine/Receive.lean ====
section
/-! DEFINITION. The receive delimiter: bytes and ticks (spec/43_decoder.md R151 to R153). -/

namespace Sys2Proof.Machine

/-- A byte into a window with room (R151). -/
def appendByte (a : Byte) (s : State) : State :=
  { s with rxWin := s.rxWin.write s.rxCnt a, rxCnt := s.rxCnt + 1, rxLast := s.now }

/-- A byte at a full window: it is dropped (R151). -/
def dropByte (s : State) : State := { s with rxOvf := true, rxLast := s.now }

/-- `EV.RXB a` (R151): append the byte, or drop it at a full window; either way the silence is measured from now. -/
def execEvRxb (a : Byte) (s : State) : Result :=
  if s.rxCnt < s.params.rxCap then .next (appendByte a s) else .next (dropByte s)

/-- The accumulation is reset: what every close ends with, "whatever the outcome" (R153). -/
def emptyWindow (s : State) : State := { s with rxCnt := 0, rxOvf := false }

/-- `CLOSE_WINDOW` (R153): classify and latch the window's bytes, then reset the accumulation. -/
def closeWindow (s : State) : Result :=
  match s.rxWin.readBytes 0 s.rxCnt with
  | none => .fault .bufferByteNoValue
  | some w => .next (emptyWindow (latch w (classify s.params w s.rxOvf) s))

/-- `now <- (now + 1) mod 2^32` (R152). -/
def countTick (s : State) : State := { s with now := s.now + 1#32 }

/-- The gap timer is due: a window is open and `P_T_GAP` ticks have passed since its last byte (R152). -/
def gapDue (s : State) : Bool := decide (s.rxCnt > 0 ∧ elapsed s s.rxLast ≥ s.params.tGap)

/-- The debounce timer is due (R152). -/
def debDue (s : State) : Bool := s.params.debPresent && s.debRun && decide (elapsed s s.debStart ≥ s.params.tDeb)

/-- The receive half of a tick, after `now` has advanced (R152). -/
def tickReceive (s : State) : Result := if gapDue s then closeWindow s else .next s

/-- The debounce half of a tick (R152). -/
def tickDebounce (s : State) : Result := if debDue s then .next (debFire s) else .next s

/-- `EV.TICK` (R152): `now` advances, then the window close, then the debounce expiry (spec/60_exceptions.md R256). -/
def execEvTick (s : State) : Result :=
  andThen (tickReceive (countTick s)) tickDebounce

end Sys2Proof.Machine
end

