-- ==== Sys2Proof/Machine/Reset.lean ====
section
/-! DEFINITION. `EV.RESET` (spec/70_reset_and_hazards.md R280). -/

namespace Sys2Proof.Machine

/-- `EV.RESET`: "every state element of rule R22 takes its reset value"; the buffers' bytes lose their values, nothing is
emitted. Parameters "are not state and keep their values"; the stream's position and the outputs already emitted are no
state of the block either (spec/10_state.md R40). -/
def execEvReset (s : State) : Result :=
  .next { State.resetWith s.params with stream := s.stream, outputs := s.outputs }

end Sys2Proof.Machine
end

