-- ==== Sys2Proof/Syntax.lean ====
section
/-! DEFINITION. The records of FCODEC: one constructor per row of spec/opcode_table.json (spec/30_encoding.md R83, R84).
A block operand `[d]` is the list of its bytes; its count `n` is the list's length (R81, R82; log entry 16). -/

namespace Sys2Proof

/-- A record: a command (opcodes below 0x80) or an event (R80). -/
inductive Instr where
  /-- `CRC.CLR`, 0x01, format F0. -/
  | crcClr
  /-- `CRC.BYTE a`, 0x02, format F1. -/
  | crcByte (a : Byte)
  /-- `CRC.BLK [d]`, 0x03, format FB. -/
  | crcBlk (d : List Byte)
  /-- `ENC.SHORT id, type, [d]`, 0x10, format FS. -/
  | encShort (id ty : Byte) (d : List Byte)
  /-- `ENC.EXT id, type, [d]`, 0x11, format FS. -/
  | encExt (id ty : Byte) (d : List Byte)
  /-- `ENC.EXTA id, type`, 0x12, format F2. -/
  | encExta (id ty : Byte)
  /-- `ENC.ACK`, 0x13, format F0. -/
  | encAck
  /-- `ENC.NACK`, 0x14, format F0. -/
  | encNack
  /-- `DEC.SHORT [d]`, 0x20, format FB. -/
  | decShort (d : List Byte)
  /-- `RX.CLR`, 0x21, format F0. -/
  | rxClr
  /-- `EXT.SEG total, current, [d]`, 0x30, format FG. -/
  | extSeg (total current : Byte) (d : List Byte)
  /-- `RD.REG r`, 0x40, format F1. -/
  | rdReg (r : Byte)
  /-- `RD.BUF sel, idx`, 0x41, format FR. -/
  | rdBuf (sel : Byte) (idx : Half)
  /-- `EV.RXB a`, 0x80, format F1. -/
  | evRxb (a : Byte)
  /-- `EV.TICK`, 0x81, format F0. -/
  | evTick
  /-- `EV.EDGE p, level`, 0x82, format F2; `level` true is the physical high level (spec/10_state.md R36). -/
  | evEdge (pin : Byte) (level : Bool)
  /-- `EV.RESET`, 0xFF, format F0. -/
  | evReset
deriving DecidableEq, Repr

end Sys2Proof
end

