-- ==== Sys2Proof/Machine/Dispatch.lean ====
section
/-! DEFINITION. One arm per record of spec/opcode_table.json. -/

namespace Sys2Proof.Machine

def exec (i : Instr) (s : State) : Host.Outcome State Fault Refusal :=
  match i with
  | .crcClr => Sys2Proof.Machine.execCrcClr s
  | .crcByte a => Sys2Proof.Machine.execCrcByte a s
  | .crcBlk d => Sys2Proof.Machine.execCrcBlk d s
  | .encShort id ty d => Sys2Proof.Machine.execEncShort id ty d s
  | .encExt id ty d => Sys2Proof.Machine.execEncExt id ty d s
  | .encExta id ty => Sys2Proof.Machine.execEncExta id ty s
  | .encAck => Sys2Proof.Machine.execEncAck s
  | .encNack => Sys2Proof.Machine.execEncNack s
  | .decShort d => Sys2Proof.Machine.execDecShort d s
  | .rxClr => Sys2Proof.Machine.execRxClr s
  | .extSeg total current d => Sys2Proof.Machine.execExtSeg total current d s
  | .rdReg r => Sys2Proof.Machine.execRdReg r s
  | .rdBuf sel idx => Sys2Proof.Machine.execRdBuf sel idx s
  | .evRxb a => Sys2Proof.Machine.execEvRxb a s
  | .evTick => Sys2Proof.Machine.execEvTick s
  | .evEdge pin level => Sys2Proof.Machine.execEvEdge pin level s
  | .evReset => Sys2Proof.Machine.execEvReset s

end Sys2Proof.Machine
end

