-- ==== Sys2Proof/WellFormed.lean ====
section
/-! DEFINITION. Which records the byte format of spec/30_encoding.md R81 can carry. -/

namespace Sys2Proof

/-- The count `n` of a block operand fits its 16-bit field: "16 bits, unsigned, 0 to 65535" (R82). -/
def blockFits (d : List Byte) : Bool := decide (d.length < 65536)

/-- A record that some byte sequence encodes. The 8-bit and 16-bit operands hold every value of their type; only a block's
length can be out of range. (`EV.EDGE`'s pin bound is a check against the parameter `P_N_PINS`, made when the record runs.) -/
def Instr.wf : Instr → Bool
  | .crcClr => true
  | .crcByte _ => true
  | .crcBlk d => blockFits d
  | .encShort _ _ d => blockFits d
  | .encExt _ _ d => blockFits d
  | .encExta _ _ => true
  | .encAck => true
  | .encNack => true
  | .decShort d => blockFits d
  | .rxClr => true
  | .extSeg _ _ d => blockFits d
  | .rdReg _ => true
  | .rdBuf _ _ => true
  | .evRxb _ => true
  | .evTick => true
  | .evEdge _ _ => true
  | .evReset => true

end Sys2Proof
end

