-- ==== Sys2Proof/Decode.lean ====
section
/-! DEFINITION. The decoder of the record byte stream (spec/30_encoding.md R81 to R89), total on any bytes, and after it the
encoder, written from the same tables. -/

namespace Sys2Proof

/-- The record formats of R81. -/
inductive Format where
  | f0 | f1 | f2 | fb | fs | fg | fr
deriving DecidableEq, Repr

/-- Why a byte sequence is refused as a record (R88, R89). -/
inductive Reject where
  /-- The bytes end before the last byte the record's format and `n` require (R89). -/
  | truncated
  /-- An event opcode that R84 does not list (R88). -/
  | reservedEvent (op : Byte)
  /-- `EV.EDGE` with `b > 1` (R89). -/
  | edgeLevel (b : Byte)
deriving DecidableEq, Repr

/-- What the decoder finds at the head of the stream, with the bytes after it. -/
inductive Decoded where
  /-- A record of the opcode table. -/
  | instr (i : Instr) (rest : List Byte)
  /-- A reserved command opcode, "taken as a 1-byte record" (R87). -/
  | reservedCommand (op : Byte) (rest : List Byte)
  /-- A record that has no step (R88, R89). -/
  | reject (r : Reject)
deriving DecidableEq, Repr

/-- A 16-bit operand, low byte first (R85): `n = zext_16(lo) | (zext_16(hi) << 8)`. -/
def u16le (lo hi : Byte) : Half := lo.setWidth 16 ||| (hi.setWidth 16 <<< 8)

/-- The format columns of R83 and R84; none for a reserved opcode. -/
def formatOf (op : Byte) : Option Format :=
  match op.toNat with
  | 0x01 => some .f0
  | 0x02 => some .f1
  | 0x03 => some .fb
  | 0x10 => some .fs
  | 0x11 => some .fs
  | 0x12 => some .f2
  | 0x13 => some .f0
  | 0x14 => some .f0
  | 0x20 => some .fb
  | 0x21 => some .f0
  | 0x30 => some .fg
  | 0x40 => some .f1
  | 0x41 => some .fr
  | 0x80 => some .f1
  | 0x81 => some .f0
  | 0x82 => some .f2
  | 0xFF => some .f0
  | _ => none

/-- The length in bytes of the record whose bytes, from the opcode on, are `b 0, b 1, …` (R81, R86); a reserved opcode is one
byte. -/
def recordLength (b : Nat → Byte) : Nat :=
  match formatOf (b 0) with
  | none => 1
  | some .f0 => 1
  | some .f1 => 2
  | some .f2 => 3
  | some .fb => 3 + (u16le (b 1) (b 2)).toNat
  | some .fs => 5 + (u16le (b 3) (b 4)).toNat
  | some .fg => 5 + (u16le (b 3) (b 4)).toNat
  | some .fr => 4

/-- Format F1: one operand byte. -/
def decodeF1 (k : Byte → Instr) : List Byte → Decoded
  | a :: r => .instr (k a) r
  | _ => .reject .truncated

/-- Format F2: two operand bytes; `k` sees them and the bytes after the record. -/
def decodeF2 (k : Byte → Byte → List Byte → Decoded) : List Byte → Decoded
  | a :: b :: r => k a b r
  | _ => .reject .truncated

/-- The `n` data bytes that end formats FB, FS and FG (R86). -/
def decodeBlock (k : List Byte → Instr) (n : Half) (r : List Byte) : Decoded :=
  if n.toNat ≤ r.length then .instr (k (r.take n.toNat)) (r.drop n.toNat) else .reject .truncated

/-- Format FB: `n` and the data. -/
def decodeFB (k : List Byte → Instr) : List Byte → Decoded
  | lo :: hi :: r => decodeBlock k (u16le lo hi) r
  | _ => .reject .truncated

/-- Formats FS and FG: two operand bytes, `n` and the data. -/
def decodeFS (k : Byte → Byte → List Byte → Instr) : List Byte → Decoded
  | a :: b :: lo :: hi :: r => decodeBlock (k a b) (u16le lo hi) r
  | _ => .reject .truncated

/-- Format FR: `sel` and the 16-bit `idx`. -/
def decodeFR (k : Byte → Half → Instr) : List Byte → Decoded
  | sel :: lo :: hi :: r => .instr (k sel (u16le lo hi)) r
  | _ => .reject .truncated

/-- `EV.EDGE`'s operands: a level of 0 or 1, any other refused (R84, R89). -/
def decodeEdge (pin level : Byte) (rest : List Byte) : Decoded :=
  if level = 0#8 then .instr (.evEdge pin false) rest
  else if level = 1#8 then .instr (.evEdge pin true) rest
  else .reject (.edgeLevel level)

/-- Reads one record from the head of the stream: the opcode selects the row of R83 or R84, and the rest is left for the next
record (R86). -/
def decode : List Byte → Decoded
  | [] => .reject .truncated
  | op :: r =>
    match op.toNat with
    | 0x01 => .instr .crcClr r
    | 0x02 => decodeF1 .crcByte r
    | 0x03 => decodeFB .crcBlk r
    | 0x10 => decodeFS .encShort r
    | 0x11 => decodeFS .encExt r
    | 0x12 => decodeF2 (fun a b => .instr (.encExta a b)) r
    | 0x13 => .instr .encAck r
    | 0x14 => .instr .encNack r
    | 0x20 => decodeFB .decShort r
    | 0x21 => .instr .rxClr r
    | 0x30 => decodeFS .extSeg r
    | 0x40 => decodeF1 .rdReg r
    | 0x41 => decodeFR .rdBuf r
    | 0x80 => decodeF1 .evRxb r
    | 0x81 => .instr .evTick r
    | 0x82 => decodeF2 decodeEdge r
    | 0xFF => .instr .evReset r
    | n => if n < 0x80 then .reservedCommand op r else .reject (.reservedEvent op)

/-- The two bytes of a 16-bit operand, low byte first (R66, R85). -/
def encodeU16 (v : Half) : List Byte := [v.extractLsb' 0 8, v.extractLsb' 8 8]

/-- The count field and the data bytes of a block operand (R81). -/
def encodeBlock (d : List Byte) : List Byte := encodeU16 (BitVec.ofNat 16 d.length) ++ d

/-- The bytes of a record, in stream order (R81, R83, R84). -/
def encode : Instr → List Byte
  | .crcClr => [0x01#8]
  | .crcByte a => [0x02#8, a]
  | .crcBlk d => 0x03#8 :: encodeBlock d
  | .encShort id ty d => 0x10#8 :: id :: ty :: encodeBlock d
  | .encExt id ty d => 0x11#8 :: id :: ty :: encodeBlock d
  | .encExta id ty => [0x12#8, id, ty]
  | .encAck => [0x13#8]
  | .encNack => [0x14#8]
  | .decShort d => 0x20#8 :: encodeBlock d
  | .rxClr => [0x21#8]
  | .extSeg total current d => 0x30#8 :: total :: current :: encodeBlock d
  | .rdReg r => [0x40#8, r]
  | .rdBuf sel idx => 0x41#8 :: sel :: encodeU16 idx
  | .evRxb a => [0x80#8, a]
  | .evTick => [0x81#8]
  | .evEdge pin level => [0x82#8, pin, if level then 1#8 else 0#8]
  | .evReset => [0xFF#8]

/-- Byte `k` of an instruction word whose bit 0 is the least significant bit of its first byte, and whose bits from `nbits` up
are 0. -/
def tableByte (nbits w k : Nat) : Byte :=
  BitVec.ofNat 8 ((w % 2 ^ nbits) >>> (8 * k))

/-- The bytes of the one record such a word stands for: as many as the record's own length asks for (R86), zeros above
`nbits`. -/
def tableRecord (nbits w : Nat) : List Byte :=
  (List.range (recordLength (tableByte nbits w))).map (tableByte nbits w)

/-- The record the decoder reads from an instruction word numbered as spec/opcode_table.json numbers it. -/
def decodeTableWord (nbits w : Nat) : Option Instr :=
  match decode (tableRecord nbits w) with
  | .instr i _ => some i
  | .reservedCommand _ _ => none
  | .reject _ => none

end Sys2Proof
end

