-- ==== Sys2Proof/Machine/Fetch.lean ====
section
/-! DEFINITION. Taking the next record from the stream (spec/10_state.md R21, spec/30_encoding.md R86 to R89), and what a
record that is no instruction does. -/

namespace Sys2Proof.Machine

/-- What stands at the head of the stream; a record comes with the state whose position is past its last byte. -/
inductive Fetched where
  /-- No record is presented. -/
  | idle
  /-- A record of the opcode table. -/
  | record (i : Instr) (s : State)
  /-- A reserved command opcode (R87). -/
  | reservedCommand (op : Byte) (s : State)
  /-- A record with no step (R88, R89). -/
  | refuse (r : Refusal)

/-- The refusal of a record the decoder rejects (R88, R89). -/
def refusalOf : Reject → Refusal
  | .truncated => .truncatedRecord
  | .reservedEvent op => .reservedEvent op
  | .edgeLevel b => .edgeLevel b

/-- "Each record advances the position past its own last byte" (spec/10_state.md R21). -/
def advance (rest : List Byte) (s : State) : State := { s with stream := rest }

/-- The record at the head of the stream. -/
def fetch (s : State) : Fetched :=
  match s.stream with
  | [] => .idle
  | b :: bs =>
    match decode (b :: bs) with
    | .instr i rest => .record i (advance rest s)
    | .reservedCommand op rest => .reservedCommand op (advance rest s)
    | .reject r => .refuse (refusalOf r)

/-- With no record presented the block "does nothing between records" (spec/60_exceptions.md R264) and waits (R283). Log
entry 3. -/
def idleStep (s : State) : Result := .next s

/-- A reserved command opcode: `fail BAD_OPCODE` (spec/30_encoding.md R87). -/
def execReservedCommand (_op : Byte) (s : State) : Result := fail .badOpcode s

/-- A record that has no step: "it leaves the state unchanged and the model stuck on that record" (R89). -/
def refuseRecord (r : Refusal) : Result := .refused r

/-- Presents the one record that an instruction word stands for, ahead of what the stream already holds. -/
def presentRecord (s : State) (nbits w : Nat) : State := { s with stream := tableRecord nbits w ++ s.stream }

end Sys2Proof.Machine
end

