-- ==== Sys2Proof/Machine/Step.lean ====
section
/-! DEFINITION. One step: one record (spec/00_scope.md R4, spec/20_memory.md R69). -/

namespace Sys2Proof.Machine

/-- Takes the next record from the stream and runs it; the position is past the record before its rule runs. -/
def step (s : State) : Host.Outcome State Fault Refusal :=
  match fetch s with
  | .idle => idleStep s
  | .record i t => exec i t
  | .reservedCommand op t => execReservedCommand op t
  | .refuse r => refuseRecord r

/-- `s` with the record of an instruction word presented next. It stands for the environment presenting that record
(log entries 1 and 17). -/
def State.withFetchWord (s : State) (nbits w : Nat) : State := presentRecord s nbits w

end Sys2Proof.Machine
end

