-- ==== Sys2Proof/Safety.lean ====
section
/-! DEFINITION. The invariant of FCODEC (spec/10_state.md R39, spec/45_debounce.md R205, spec/20_memory.md R62, R63), what a
safe run is, and the words the claims use for sequences of records. -/

namespace Sys2Proof.Machine

/-- Every byte of `m` below `n` has a value: what spec/20_memory.md R63 says of a buffer and its length element. -/
abbrev valuedBelow (m : Memory) (n : Nat) : Prop := ∀ i, i < n → (m.read i).isSome = true

/-- No byte of `m` stands at or above `n`: "indices run from 0 to size − 1" (spec/20_memory.md R62). -/
abbrev withinSize (m : Memory) (n : Nat) : Prop := ∀ c ∈ m, c.1 < n

/-- The bits of a pin bitmap at or above `n` are 0 (spec/10_state.md R37, log entry 10). -/
abbrev pinsBelow (v : Word) (n : Nat) : Prop := ∀ p, p < 32 → n ≤ p → pinBit v p = false

/-- `w` is the content of the first `n` bytes of `m`. -/
abbrev holds (m : Memory) (n : Nat) (w : List Byte) : Prop := w.length = n ∧ ∀ i, i < n → m.read i = w[i]?

/-- What holds between records, in every state that a run reaches. -/
structure State.Inv (s : State) : Prop where
  /-- The parameters meet their constraints (spec/00_scope.md R7). -/
  paramsWf : s.params.wf
  /-- The buffers are in canonical form. -/
  rxWinWf : s.rxWin.wf
  resPayloadWf : s.resPayload.wf
  txBufWf : s.txBuf.wf
  extBufWf : s.extBuf.wf
  /-- The buffers keep to their sizes (spec/20_memory.md R61, R62). -/
  rxWinSize : withinSize s.rxWin s.params.rxCap
  resPayloadSize : withinSize s.resPayload s.params.maxShort
  txBufSize : withinSize s.txBuf s.params.txCap
  extBufSize : withinSize s.extBuf s.params.maxExt
  /-- Every byte below a buffer's length element has been written (spec/20_memory.md R63). -/
  rxWinValued : valuedBelow s.rxWin s.rxCnt
  resPayloadValued : s.resCode = .frameOk → valuedBelow s.resPayload s.resLen.toNat
  txBufValued : valuedBelow s.txBuf s.txLen
  extBufValued : valuedBelow s.extBuf s.extLen
  /-- `rx_cnt ≤ P_RX_CAP`, and `rx_ovf = 1` implies `rx_cnt = P_RX_CAP` (R39). -/
  rxCntLe : s.rxCnt ≤ s.params.rxCap
  rxOvfFull : s.rxOvf = true → s.rxCnt = s.params.rxCap
  /-- `tx_len ≤ P_TX_CAP`, and `tx_len = 0` if and only if `tx_kind = NONE` (R39). -/
  txLenLe : s.txLen ≤ s.params.txCap
  txLenKind : s.txLen = 0 ↔ s.txKind = .none
  /-- `ext_len ≤ P_MAX_EXT`; `ext_asm = 1` implies `2 ≤ ext_next ≤ ext_total`; not both flags (R39). -/
  extLenLe : s.extLen ≤ s.params.maxExt
  extNextRange : s.extAsm = true → 2 ≤ s.extNext ∧ s.extNext ≤ s.extTotal.toNat
  extNotBoth : ¬ (s.extAsm = true ∧ s.extDone = true)
  /-- `res_code = FRAME_OK` implies `res_len ≤ P_MAX_SHORT` and `res_n = res_len + 5`; `NONE` implies `res_valid = 0` (R39). -/
  frameOkLen : s.resCode = .frameOk → s.resLen.toNat ≤ s.params.maxShort ∧ s.resN = s.resLen.toNat + 5
  noneInvalid : s.resCode = .none → s.resValid = false
  /-- A pending pin's captured level is its physical level, and pending pins have the timer running (R39, R205). -/
  pendLevel : ∀ p, p < 32 → pinBit s.debPend p = true → pinBit s.debLevel p = pinBit s.pinPhys p
  pendRuns : s.debPend ≠ 0#32 → s.debRun = true
  /-- The pin bitmaps are `P_N_PINS` bits wide (spec/10_state.md R22). -/
  debLevelPins : pinsBelow s.debLevel s.params.nPins
  debPendPins : pinsBelow s.debPend s.params.nPins
  pinPhysPins : pinsBelow s.pinPhys s.params.nPins
  /-- Without DEB its timer never runs (spec/00_scope.md R9). -/
  absentIdle : s.params.debPresent = false → s.debRun = false
  /-- No timer stays overdue: each acts at the first tick it is due (spec/43_decoder.md R152, spec/60_exceptions.md R263). -/
  gapNotOverdue : 0 < s.rxCnt → elapsed s s.rxLast < s.params.tGap
  debNotOverdue : s.debRun = true → elapsed s s.debStart < s.params.tDeb

/-- A safe run: no number of steps ends in a fault. A refusal is no fault: it is the spec's own end of a run at a record the
hardware cannot receive (spec/70_reset_and_hazards.md R295). -/
def NeverFaults (s : State) : Prop := ∀ k f, Sys2Proof.core.run k s ≠ .fault f

/-- A straight-line record sequence (spec/30_encoding.md R98), as records and not as bytes: each runs in order, the first fault
or refusal ends it. -/
def execSeq : List Instr → State → Result
  | [], s => .next s
  | i :: is, s => andThen (exec i s) (execSeq is)

/-- Edges on one pin with alternating levels, each followed by the given number of ticks (spec/45_debounce.md R207). -/
def edgeBurst (pin : Byte) (level : Bool) : List Nat → List Instr
  | [] => []
  | g :: gs => .evEdge pin level :: (List.replicate g .evTick ++ edgeBurst pin (!level) gs)

/-- An `OUT.BUTTON` of pin `p`. -/
def isButtonOf (p : Nat) : Output → Bool
  | .button q _ => q == p
  | .read _ => false
  | .txReady _ _ => false
  | .rxResult _ => false
  | .nackReq => false
  | .extDone _ => false

/-- A command of spec/30_encoding.md R83 (the other constructors are the events of R84). -/
def isCommand : Instr → Bool
  | .evRxb _ => false
  | .evTick => false
  | .evEdge _ _ => false
  | .evReset => false
  | .crcClr => true
  | .crcByte _ => true
  | .crcBlk _ => true
  | .encShort _ _ _ => true
  | .encExt _ _ _ => true
  | .encExta _ _ => true
  | .encAck => true
  | .encNack => true
  | .decShort _ => true
  | .rxClr => true
  | .extSeg _ _ _ => true
  | .rdReg _ => true
  | .rdBuf _ _ => true

end Sys2Proof.Machine
end

