-- ==== Sys2Proof/Certificates/Slice0/Obligations.lean ====
section
/-! DEFINITION. The statements for the provers, from the numbered rules of spec/. Every statement is over all states, and with
them over all parameter values (spec/00_scope.md R7), unless its hypotheses say otherwise. -/

open Sys2Proof Sys2Proof.Machine

/-! ### Records: encoding and stream -/

/-- Decoding the encoding of any well-formed record gives that record back and leaves the bytes after it (R81, R83 to R86). -/
def Obligations.DecodeOfEncodeIsTheRecord : Prop :=
  ∀ (i : Instr) (rest : List Byte), i.wf = true → decode (encode i ++ rest) = .instr i rest

/-- Whatever the decoder reads as a record is well-formed, and the bytes it took are that record's one encoding (R81 to R86). -/
def Obligations.DecodedBytesAreTheEncoding : Prop :=
  ∀ (bytes rest : List Byte) (i : Instr), decode bytes = .instr i rest → i.wf = true ∧ bytes = encode i ++ rest

/-- Records written out byte by byte in spec/95_test_vectors.md decode to the records they stand for. -/
def Obligations.WrittenOutRecordsDecode : Prop :=
  decode [0x10#8, 0x04#8, 0x4E#8, 0x00#8, 0x00#8] = .instr (.encShort 0x04#8 0x4E#8 []) [] ∧
  decode [0x20#8, 0x05#8, 0x00#8, 0x04#8, 0x4E#8, 0x00#8, 0x61#8, 0x74#8] =
    .instr (.decShort [0x04#8, 0x4E#8, 0x00#8, 0x61#8, 0x74#8]) [] ∧
  decode [0x30#8, 0x02#8, 0x01#8, 0x02#8, 0x00#8, 0xAA#8, 0xBB#8] = .instr (.extSeg 0x02#8 0x01#8 [0xAA#8, 0xBB#8]) [] ∧
  decode [0x03#8, 0x00#8, 0x00#8] = .instr (.crcBlk []) [] ∧
  decode [0x40#8, 0x01#8] = .instr (.rdReg 0x01#8) [] ∧
  decode [0x41#8, 0x01#8, 0x03#8, 0x00#8] = .instr (.rdBuf 0x01#8 0x0003#16) [] ∧
  decode [0x82#8, 0x00#8, 0x00#8] = .instr (.evEdge 0x00#8 false) [] ∧
  decode [0x80#8, 0x04#8] = .instr (.evRxb 0x04#8) [] ∧
  decode [0xFF#8] = .instr .evReset []

/-- A step runs exactly the record at the head of the stream, at the state whose position is past that record's last byte
(R21, R86); with no record presented it changes nothing, which is the model's choice (log entry 3; R264: the block "does nothing
between records"). -/
def Obligations.StepRunsTheDecodedRecord : Prop :=
  (∀ (s : State) (i : Instr) (rest : List Byte),
    decode s.stream = .instr i rest → step s = exec i { s with stream := rest }) ∧
  (∀ s : State, s.stream = [] → step s = .next s)

/-- The byte stream of any well-formed record sequence runs exactly those records, in order, and leaves the bytes after them:
the stream machine refines straight-line execution (R21, R86, R98). -/
def Obligations.EncodedStreamRunsItsRecordsInOrder : Prop :=
  ∀ (is : List Instr) (rest : List Byte) (s : State),
    (∀ i ∈ is, i.wf = true) → s.stream = (is.map encode).flatten ++ rest →
    Sys2Proof.core.run is.length s = execSeq is { s with stream := rest }

/-- A reserved command opcode is a 1-byte record that sets `cmd_status` to `BAD_OPCODE` and changes nothing else (R87). -/
def Obligations.ReservedCommandSetsBadOpcode : Prop :=
  ∀ (s : State) (op : Byte) (rest : List Byte),
    s.stream = op :: rest → op.toNat < 0x80 →
    op.toNat ∉ [0x01, 0x02, 0x03, 0x10, 0x11, 0x12, 0x13, 0x14, 0x20, 0x21, 0x30, 0x40, 0x41] →
    step s = .next { s with stream := rest, cmdStatus := .badOpcode }

/-- A reserved event opcode has no step (R88). -/
def Obligations.ReservedEventIsRefused : Prop :=
  ∀ (s : State) (op : Byte) (rest : List Byte),
    s.stream = op :: rest → 0x80 ≤ op.toNat → op.toNat ∉ [0x80, 0x81, 0x82, 0xFF] →
    step s = .refused (.reservedEvent op)

/-- The four further grounds on which a record is refused (R89): it is truncated; it is `EV.EDGE` with a level above 1, with a
pin at or above `P_N_PINS`, or while DEB is not built. That it is refused is the spec's; the name it is refused under where several
grounds hold (a level above 1 before DEB absent, DEB absent before the pin) is the model's choice (log entry 11). -/
def Obligations.IllFormedRecordsAreRefused : Prop :=
  ∀ s : State,
    (∀ (i : Instr) (k : Nat), i.wf = true → 0 < k → k < (encode i).length → s.stream = (encode i).take k →
      step s = .refused .truncatedRecord) ∧
    (∀ (pin b : Byte) (rest : List Byte), s.stream = 0x82#8 :: pin :: b :: rest → 1 < b.toNat →
      step s = .refused (.edgeLevel b)) ∧
    (∀ (pin b : Byte) (rest : List Byte), s.stream = 0x82#8 :: pin :: b :: rest → b.toNat ≤ 1 →
      s.params.debPresent = true → s.params.nPins ≤ pin.toNat → step s = .refused (.edgePin pin)) ∧
    (∀ (pin b : Byte) (rest : List Byte), s.stream = 0x82#8 :: pin :: b :: rest → b.toNat ≤ 1 →
      s.params.debPresent = false → step s = .refused .debAbsent)

/-- A step refuses nothing else: every refusal has one of the grounds of R88 and R89. -/
def Obligations.OnlyListedRecordsAreRefused : Prop :=
  ∀ (s : State) (r : Refusal), step s = .refused r →
    (∃ op rest, s.stream = op :: rest ∧ 0x80 ≤ op.toNat ∧ op.toNat ∉ [0x80, 0x81, 0x82, 0xFF]) ∨
    (∃ i k, i.wf = true ∧ 0 < k ∧ k < (encode i).length ∧ s.stream = (encode i).take k) ∨
    (∃ pin b rest, s.stream = 0x82#8 :: pin :: b :: rest ∧
      (1 < b.toNat ∨ s.params.nPins ≤ pin.toNat ∨ s.params.debPresent = false))

/-! ### CRC unit -/

/-- `crc16_update` is eight turns of the reflected loop from the byte XORed into the low 8 bits, and `CRC16` folds it from 0
(R111). The last two clauses are values of spec/95_test_vectors.md (V-CRC-9, the catalogue check value, and V-CRC-10). -/
def Obligations.ChecksumIsTheReflectedLoop : Prop :=
  (∀ (c : Half) (b : Byte), crc16Update c b =
    Nat.iterate (fun x : Half => if x.getLsbD 0 = true then (x >>> 1) ^^^ 0xA001#16 else x >>> 1) 8 (c ^^^ b.setWidth 16)) ∧
  (∀ s : List Byte, crc16 s = s.foldl crc16Update 0x0000#16) ∧
  crc16 [0x31#8, 0x32#8, 0x33#8, 0x34#8, 0x35#8, 0x36#8, 0x37#8, 0x38#8, 0x39#8] = 0xBB3D#16 ∧
  crc16 [0x04#8, 0x4E#8, 0x00#8] = 0x6174#16

/-- Leading zero bytes do not change the checksum (R115, zero prefix). -/
def Obligations.ChecksumIgnoresLeadingZeros : Prop :=
  ∀ (k : Nat) (s : List Byte), crc16 (List.replicate k 0x00#8 ++ s) = crc16 s

/-- The checksum is linear over sequences of equal length (R115, linearity). -/
def Obligations.ChecksumIsLinear : Prop :=
  ∀ s t : List Byte, s.length = t.length → crc16 (List.zipWith (· ^^^ ·) s t) = crc16 s ^^^ crc16 t

/-- Changing any one bit of a sequence changes its checksum (R115, single-bit errors). -/
def Obligations.ChecksumSeesEverySingleBit : Prop :=
  ∀ (s : List Byte) (k b : Nat) (h : k < s.length), b < 8 → crc16 (s.set k (s[k] ^^^ (1#8 <<< b))) ≠ crc16 s

/-- The residue: with the checksum appended low byte first the checksum is 0, with the big-endian tail of a frame it need not be
(R115). -/
def Obligations.ChecksumResidue : Prop :=
  (∀ s : List Byte, crc16 (s ++ [(crc16 s).extractLsb' 0 8, (crc16 s).extractLsb' 8 8]) = 0x0000#16) ∧
  crc16 [0x04#8, 0x4E#8, 0x00#8, 0x61#8, 0x74#8] = 0x5FCF#16

/-- `CRC.CLR` sets the accumulator to 0 and the status to `OK`, and nothing else (R112). -/
def Obligations.CrcClrClearsTheAccumulator : Prop :=
  ∀ s : State, exec .crcClr s = .next { s with crc := 0x0000#16, cmdStatus := .ok }

/-- `CRC.BYTE` folds its byte into the accumulator and sets the status to `OK`, and nothing else (R113). -/
def Obligations.CrcByteFoldsOneByte : Prop :=
  ∀ (a : Byte) (s : State), exec (.crcByte a) s = .next { s with crc := crc16Update s.crc a, cmdStatus := .ok }

/-- `CRC.BLK` folds its bytes in order, leaves everything else, and for `n > 0` equals `n` successive `CRC.BYTE` records (R114). -/
def Obligations.CrcBlkIsSuccessiveCrcBytes : Prop :=
  ∀ (d : List Byte) (s : State),
    exec (.crcBlk d) s = .next { s with crc := d.foldl crc16Update s.crc, cmdStatus := .ok } ∧
    (d ≠ [] → execSeq (d.map .crcByte) s = exec (.crcBlk d) s)

/-- `crc` is written only by the CRC commands and by reset (R23): every other record leaves it; and no record but those and
`RD.REG` depends on it: from another accumulator it does the same to everything else. -/
def Obligations.AccumulatorBelongsToTheCrcUnit : Prop :=
  ∀ (i : Instr) (s t : State), i ≠ .crcClr → (∀ a, i ≠ .crcByte a) → (∀ d, i ≠ .crcBlk d) → i ≠ .evReset →
    exec i s = .next t →
    t.crc = s.crc ∧ ((∀ r, i ≠ .rdReg r) → ∀ c : Half, exec i { s with crc := c } = .next { t with crc := c })

/-! ### Frame encoder -/

/-- `ENC.SHORT` builds `[id][type][length][payload][crc_hi][crc_lo]` in `tx_buf` and announces it, or fails with `ENC_LEN` and
changes only `cmd_status` (R131, R133, R64). The last clause, that a frame longer than `P_TX_CAP` fails too, is the model's choice (log
entry 7): it can hold only where `P_MAX_SHORT ≥ P_MAX_EXT`. -/
def Obligations.EncShortBuildsTheFrame : Prop :=
  ∀ (id ty : Byte) (d : List Byte) (s : State),
    (d.length ≤ s.params.maxShort → d.length + 5 ≤ s.params.txCap →
      ∃ t, exec (.encShort id ty d) s = .next t ∧
        t = { s with txBuf := t.txBuf, txLen := d.length + 5, txKind := .short, cmdStatus := .ok,
                     outputs := s.outputs ++ [.txReady .short (BitVec.ofNat 16 (d.length + 5))] } ∧
        t.txBuf.read 0 = some id ∧ t.txBuf.read 1 = some ty ∧ t.txBuf.read 2 = some (BitVec.ofNat 8 d.length) ∧
        (∀ k, k < d.length → t.txBuf.read (3 + k) = d[k]?) ∧
        t.txBuf.read (d.length + 3) = some ((crc16 (id :: ty :: BitVec.ofNat 8 d.length :: d)).extractLsb' 8 8) ∧
        t.txBuf.read (d.length + 4) = some ((crc16 (id :: ty :: BitVec.ofNat 8 d.length :: d)).extractLsb' 0 8) ∧
        (∀ k, d.length + 5 ≤ k → t.txBuf.read k = s.txBuf.read k)) ∧
    (s.params.maxShort < d.length → exec (.encShort id ty d) s = .next { s with cmdStatus := .encLen }) ∧
    (s.params.maxShort < s.params.maxExt → d.length ≤ s.params.maxShort → d.length + 5 ≤ s.params.txCap) ∧
    (s.params.txCap < d.length + 5 → exec (.encShort id ty d) s = .next { s with cmdStatus := .encLen })

/-- `ENC.EXT` builds `[id][type][len_lo][len_hi][payload]` in `tx_buf` and announces it, or fails with `ENC_LEN` and changes only
`cmd_status` (R132, R134, R65). -/
def Obligations.EncExtBuildsTheFrame : Prop :=
  ∀ (id ty : Byte) (d : List Byte) (s : State),
    (d.length ≤ s.params.maxExt →
      ∃ t, exec (.encExt id ty d) s = .next t ∧
        t = { s with txBuf := t.txBuf, txLen := d.length + 4, txKind := .ext, cmdStatus := .ok,
                     outputs := s.outputs ++ [.txReady .ext (BitVec.ofNat 16 (d.length + 4))] } ∧
        t.txBuf.read 0 = some id ∧ t.txBuf.read 1 = some ty ∧
        t.txBuf.read 2 = some (BitVec.ofNat 8 d.length) ∧ t.txBuf.read 3 = some (BitVec.ofNat 8 (d.length / 256)) ∧
        (∀ k, k < d.length → t.txBuf.read (4 + k) = d[k]?) ∧
        (∀ k, d.length + 4 ≤ k → t.txBuf.read k = s.txBuf.read k)) ∧
    (s.params.maxExt < d.length → exec (.encExt id ty d) s = .next { s with cmdStatus := .encLen })

/-- `ENC.EXTA` builds the extended frame of the assembled payload, all of whose bytes have been written (R63),
and keeps it, or fails with `EXT_NOT_READY` and changes
only `cmd_status` (R132, R135). -/
def Obligations.EncExtaBuildsFromTheAssembledPayload : Prop :=
  ∀ (id ty : Byte) (s : State),
    (s.extDone = true → valuedBelow s.extBuf s.extLen →
      ∃ t, exec (.encExta id ty) s = .next t ∧
        t = { s with txBuf := t.txBuf, txLen := s.extLen + 4, txKind := .ext, cmdStatus := .ok,
                     outputs := s.outputs ++ [.txReady .ext (BitVec.ofNat 16 (s.extLen + 4))] } ∧
        t.txBuf.read 0 = some id ∧ t.txBuf.read 1 = some ty ∧
        t.txBuf.read 2 = some (BitVec.ofNat 8 s.extLen) ∧ t.txBuf.read 3 = some (BitVec.ofNat 8 (s.extLen / 256)) ∧
        (∀ k, k < s.extLen → t.txBuf.read (4 + k) = s.extBuf.read k) ∧
        (∀ k, s.extLen + 4 ≤ k → t.txBuf.read k = s.txBuf.read k)) ∧
    (s.extDone = false → exec (.encExta id ty) s = .next { s with cmdStatus := .extNotReady })

/-- `ENC.ACK` and `ENC.NACK` build the control sequences `41 43 4B` and `4E 41 43 4B`; the NACK also clears `nack_req` (R136, R137). -/
def Obligations.EncAckAndNackBuildTheMarkers : Prop :=
  ∀ s : State,
    (∃ t, exec .encAck s = .next t ∧
      t = { s with txBuf := t.txBuf, txLen := 3, txKind := .ack, cmdStatus := .ok,
                   outputs := s.outputs ++ [.txReady .ack 3#16] } ∧
      t.txBuf.read 0 = some 0x41#8 ∧ t.txBuf.read 1 = some 0x43#8 ∧ t.txBuf.read 2 = some 0x4B#8 ∧
      (∀ k, 3 ≤ k → t.txBuf.read k = s.txBuf.read k)) ∧
    (∃ t, exec .encNack s = .next t ∧
      t = { s with txBuf := t.txBuf, txLen := 4, txKind := .nack, nackReq := false, cmdStatus := .ok,
                   outputs := s.outputs ++ [.txReady .nack 4#16] } ∧
      t.txBuf.read 0 = some 0x4E#8 ∧ t.txBuf.read 1 = some 0x41#8 ∧ t.txBuf.read 2 = some 0x43#8 ∧
      t.txBuf.read 3 = some 0x4B#8 ∧ (∀ k, 4 ≤ k → t.txBuf.read k = s.txBuf.read k))

/-- The built sequence stays until the next successful `ENC.*` or reset; no other record changes it (R138). -/
def Obligations.BuiltSequenceStaysUntilTheNextEncode : Prop :=
  ∀ (i : Instr) (s t : State), exec i s = .next t → i ≠ .evReset →
    (t.cmdStatus = .ok → (∀ a b d, i ≠ .encShort a b d) ∧ (∀ a b d, i ≠ .encExt a b d) ∧ (∀ a b, i ≠ .encExta a b) ∧
      i ≠ .encAck ∧ i ≠ .encNack) →
    t.txBuf = s.txBuf ∧ t.txLen = s.txLen ∧ t.txKind = s.txKind

/-! ### Receive path and decoder -/

/-- `EV.RXB` appends the byte to the window, or drops it and sets `rx_ovf` when the window is full; either way `rx_last` is now
(R151). -/
def Obligations.ReceivedByteIsAppendedOrDropped : Prop :=
  ∀ (a : Byte) (s : State),
    (s.rxCnt < s.params.rxCap →
      ∃ t, exec (.evRxb a) s = .next t ∧
        t = { s with rxWin := t.rxWin, rxCnt := s.rxCnt + 1, rxLast := s.now } ∧
        t.rxWin.read s.rxCnt = some a ∧ (∀ k, k ≠ s.rxCnt → t.rxWin.read k = s.rxWin.read k)) ∧
    (s.params.rxCap ≤ s.rxCnt → exec (.evRxb a) s = .next { s with rxOvf := true, rxLast := s.now })

/-- `EV.TICK` advances `now`, then closes the window if the gap timer is due, then fires the debounce timer if it is due; the
window's bytes `w` are classified and latched, and the window is emptied (R152, R153). -/
def Obligations.TickClosesTheWindowThenFiresDebounce : Prop :=
  ∀ (s : State) (w : List Byte), holds s.rxWin s.rxCnt w →
    let a := { s with now := s.now + 1#32 }
    let b :=
      if 0 < s.rxCnt ∧ s.params.tGap ≤ (a.now - s.rxLast).toNat then
        { latch w (classify s.params w s.rxOvf) a with rxCnt := 0, rxOvf := false }
      else a
    exec .evTick s =
      .next (if s.params.debPresent = true ∧ s.debRun = true ∧ s.params.tDeb ≤ (a.now - s.debStart).toNat then debFire b else b)

/-- What kind of message a closed window holds: the marker test first, overflow before the decode, ACK and NACK only as whole
windows (R154). -/
def Obligations.ClosedWindowIsClassified : Prop :=
  ∀ (s : State) (w : List Byte), holds s.rxWin s.rxCnt w → 0 < s.rxCnt →
    s.params.tGap ≤ (s.now + 1#32 - s.rxLast).toNat →
    ∃ t, exec .evTick s = .next t ∧ t.rxCnt = 0 ∧ t.rxOvf = false ∧ t.resN = s.rxCnt ∧
      (2 ≤ s.rxCnt → w[1]? = some s.params.rxDataMarker →
        (s.rxOvf = true → t.resCode = .lenErr ∧ t.resCrcRx = 0#16 ∧ t.resCrcCalc = 0#16) ∧
        (s.rxOvf = false → (t.resCode, t.resCrcRx, t.resCrcCalc) = decodeShort s.params w)) ∧
      (w[1]? ≠ some s.params.rxDataMarker →
        t.resCrcRx = 0#16 ∧ t.resCrcCalc = 0#16 ∧
        (s.rxOvf = false ∧ w = [0x41#8, 0x43#8, 0x4B#8] → t.resCode = .ackRx) ∧
        (s.rxOvf = false ∧ w = [0x4E#8, 0x41#8, 0x43#8, 0x4B#8] → t.resCode = .nackRx) ∧
        (s.rxOvf = true ∨ (w ≠ [0x41#8, 0x43#8, 0x4B#8] ∧ w ≠ [0x4E#8, 0x41#8, 0x43#8, 0x4B#8]) → t.resCode = .malformed))

/-- `DEC.SHORT` decodes its bytes, checksum before length, and latches the outcome: every field of the latch, the payload only on
`FRAME_OK`, `nack_req` and `OUT.NACKREQ` only on `CRC_ERR`, `res_lost` when an unconsumed result is overwritten; `cmd_status` is
`OK` whatever the outcome, and nothing else changes (R155, R156, R157). -/
def Obligations.DecShortLatchesTheOutcome : Prop :=
  ∀ (d : List Byte) (s : State),
    ∃ t, exec (.decShort d) s = .next t ∧
      t = { s with resValid := true, resCode := t.resCode, resLost := s.resLost || s.resValid,
                   nackReq := s.nackReq || decide (t.resCode = .crcErr), resId := d[0]?.getD 0, resType := d[1]?.getD 0,
                   resLen := d[2]?.getD 0, resCrcRx := t.resCrcRx, resCrcCalc := t.resCrcCalc, resN := d.length,
                   resPayload := t.resPayload, cmdStatus := .ok,
                   outputs := s.outputs ++ .rxResult t.resCode :: if t.resCode = .crcErr then [.nackReq] else [] } ∧
      (d.length < 5 → t.resCode = .lenErr ∧ t.resCrcRx = 0#16 ∧ t.resCrcCalc = 0#16) ∧
      (5 ≤ d.length →
        t.resCrcCalc = crc16 (d.take (d.length - 2)) ∧
        (∀ hi lo, d[d.length - 2]? = some hi → d[d.length - 1]? = some lo → t.resCrcRx = hi ++ lo) ∧
        (t.resCrcCalc ≠ t.resCrcRx → t.resCode = .crcErr) ∧
        (t.resCrcCalc = t.resCrcRx →
          (s.params.maxShort < t.resLen.toNat ∨ d.length ≠ t.resLen.toNat + 5 → t.resCode = .lenErr) ∧
          (t.resLen.toNat ≤ s.params.maxShort ∧ d.length = t.resLen.toNat + 5 → t.resCode = .frameOk))) ∧
      (t.resCode = .frameOk →
        (∀ k, k < t.resLen.toNat → t.resPayload.read k = d[3 + k]?) ∧
        (∀ k, t.resLen.toNat ≤ k → t.resPayload.read k = s.resPayload.read k)) ∧
      (t.resCode ≠ .frameOk → t.resPayload = s.resPayload)

/-- `RX.CLR` consumes the latched result: `res_valid` and `res_lost` become 0 and everything else stays (R158). -/
def Obligations.RxClrConsumesTheResult : Prop :=
  ∀ s : State, exec .rxClr s = .next { s with resValid := false, resLost := false, cmdStatus := .ok }

/-- Every `DEC.SHORT` and every closed window yields one of the six outcomes, `DEC.SHORT` never one of the receive path's three
(R159). -/
def Obligations.EveryDecodeHasOneOfSixOutcomes : Prop :=
  (∀ (d : List Byte) (s t : State), exec (.decShort d) s = .next t →
    t.resCode = .frameOk ∨ t.resCode = .crcErr ∨ t.resCode = .lenErr) ∧
  (∀ s t : State, exec .evTick s = .next t → 0 < s.rxCnt → t.rxCnt = 0 → t.resValid = true ∧ t.resCode ≠ .none)

/-- Decoding a short frame as R131 builds it reproduces the id, the type and the payload, in every state (R161, round trip); and that
frame is what `ENC.SHORT` leaves in `tx_buf` wherever `P_TX_CAP` has room for it. -/
def Obligations.DecodingAnEncodedShortFrameReproducesIt : Prop :=
  ∀ (id ty : Byte) (p : List Byte) (s : State), p.length ≤ s.params.maxShort → s.params.maxShort ≤ 255 →
    (p.length + 5 ≤ s.params.txCap →
      ∃ t, exec (.encShort id ty p) s = .next t ∧ holds t.txBuf t.txLen (buildShort id ty p)) ∧
    ∃ u, exec (.decShort (buildShort id ty p)) s = .next u ∧
      u.resCode = .frameOk ∧ u.resId = id ∧ u.resType = ty ∧ u.resLen.toNat = p.length ∧ u.nackReq = s.nackReq ∧
      ∀ k, k < p.length → u.resPayload.read k = p[k]?

/-- Changing any one bit of a short frame as R131 builds it, at any offset, makes `DEC.SHORT` latch `CRC_ERR` and ask for a NACK, in
every state (R161, single-bit corruption). -/
def Obligations.SingleBitCorruptionGivesCrcErr : Prop :=
  ∀ (id ty : Byte) (p : List Byte) (s : State) (k b : Nat) (h : k < (buildShort id ty p).length), b < 8 →
    ∃ u, exec (.decShort ((buildShort id ty p).set k ((buildShort id ty p)[k] ^^^ (1#8 <<< b)))) s = .next u ∧
      u.resCode = .crcErr ∧ u.nackReq = true

/-- A short frame as R131 builds it with the data marker as its type, received byte by byte into an empty window and followed by
`P_T_GAP` ticks, is latched as that frame, with the window closed (R151 to R156, R161). -/
def Obligations.ReceivedFrameIsLatchedAfterTheGap : Prop :=
  ∀ (id : Byte) (p : List Byte) (s : State),
    s.params.wf → p.length ≤ s.params.maxShort → s.rxCnt = 0 → s.rxOvf = false →
    ∃ u, execSeq ((buildShort id s.params.rxDataMarker p).map .evRxb ++ List.replicate s.params.tGap .evTick) s = .next u ∧
      u.resCode = .frameOk ∧ u.resValid = true ∧ u.resId = id ∧ u.resType = s.params.rxDataMarker ∧
      u.resLen.toNat = p.length ∧ (∀ k, k < p.length → u.resPayload.read k = p[k]?) ∧ u.rxCnt = 0

/-- A window stays open while fewer than `P_T_GAP` ticks have passed since its last byte, and is closed by the tick that makes them
`P_T_GAP` (R263, R288). -/
def Obligations.WindowClosesAtTheGapAndNotBefore : Prop :=
  ∀ (s : State), s.params.wf → valuedBelow s.rxWin s.rxCnt → 0 < s.rxCnt → s.rxLast = s.now →
    (∀ k, k < s.params.tGap → ∃ t, execSeq (List.replicate k .evTick) s = .next t ∧
      t.rxCnt = s.rxCnt ∧ t.rxWin = s.rxWin ∧ t.resValid = s.resValid ∧ t.resCode = s.resCode) ∧
    (∃ t, execSeq (List.replicate s.params.tGap .evTick) s = .next t ∧
      t.rxCnt = 0 ∧ t.resValid = true ∧ t.resN = s.rxCnt ∧ t.now = s.now + BitVec.ofNat 32 s.params.tGap)

/-- `nack_req` is set only by latching `CRC_ERR`, which only `DEC.SHORT` and a tick do, and cleared only by `ENC.NACK` and reset
(R30). -/
def Obligations.NackRequestFollowsChecksumMismatch : Prop :=
  ∀ (i : Instr) (s t : State), exec i s = .next t →
    (s.nackReq = false → t.nackReq = true → t.resCode = .crcErr ∧ ((∃ d, i = .decShort d) ∨ i = .evTick)) ∧
    (s.nackReq = true → t.nackReq = false → i = .encNack ∨ i = .evReset)

/-- `res_lost` is sticky: set only where a result is latched while `res_valid = 1`, cleared only by `RX.CLR` and reset (R29). -/
def Obligations.LostResultIsSticky : Prop :=
  ∀ (i : Instr) (s t : State), exec i s = .next t →
    (s.resLost = false → t.resLost = true → s.resValid = true ∧ t.resValid = true ∧ ((∃ d, i = .decShort d) ∨ i = .evTick)) ∧
    (s.resLost = true → t.resLost = false → i = .rxClr ∨ i = .evReset)

/-! ### Extended-frame assembler -/

/-- `EXT.SEG` rejects an impossible pair, then a segment out of sequence, then a payload past `P_MAX_EXT`, each discarding the assembly
and changing nothing else (R181, R182, R255). -/
def Obligations.ExtSegRejectsAndAborts : Prop :=
  ∀ (total current : Byte) (d : List Byte) (s : State),
    let start := if current.toNat = 1 then 0 else s.extLen
    let gone := fun c => { s with extAsm := false, extDone := false, extTotal := 0#8, extNext := 0, extLen := 0, cmdStatus := c }
    (total.toNat = 0 ∨ current.toNat = 0 ∨ total.toNat < current.toNat →
      exec (.extSeg total current d) s = .next (gone .extHdr)) ∧
    (1 < current.toNat → current.toNat ≤ total.toNat →
      (s.extAsm = false ∨ current.toNat ≠ s.extNext ∨ total ≠ s.extTotal) →
      exec (.extSeg total current d) s = .next (gone .extSeq)) ∧
    (1 ≤ current.toNat → current.toNat ≤ total.toNat →
      (current.toNat = 1 ∨ (s.extAsm = true ∧ current.toNat = s.extNext ∧ total = s.extTotal)) →
      s.params.maxExt < start + d.length →
      exec (.extSeg total current d) s = .next (gone .extOvf))

/-- An accepted segment is appended, restarting the payload when it is the first; the last completes it and announces
`OUT.EXTDONE`, any other waits for its successor (R181). -/
def Obligations.ExtSegAcceptsTheNextSegment : Prop :=
  ∀ (total current : Byte) (d : List Byte) (s : State),
    let start := if current.toNat = 1 then 0 else s.extLen
    1 ≤ current.toNat → current.toNat ≤ total.toNat →
    (current.toNat = 1 ∨ (s.extAsm = true ∧ current.toNat = s.extNext ∧ total = s.extTotal)) →
    start + d.length ≤ s.params.maxExt →
    ∃ t, exec (.extSeg total current d) s = .next t ∧
      t = { s with extBuf := t.extBuf, extLen := start + d.length, extTotal := total, extAsm := decide (current ≠ total),
                   extDone := if current = total then true else if current.toNat = 1 then false else s.extDone,
                   extNext := if current = total then 0 else current.toNat + 1, cmdStatus := .ok,
                   outputs := s.outputs ++
                     if current = total then [.extDone (BitVec.ofNat 16 (start + d.length))] else [] } ∧
      (∀ k, k < d.length → t.extBuf.read (start + k) = d[k]?) ∧
      (∀ k, k < start ∨ start + d.length ≤ k → t.extBuf.read k = s.extBuf.read k)

/-- Any in-order stream of segments, numbered 1 to its length, whose bytes fit, assembles from any state into exactly the
concatenation of its data, announced once (R32, R33, R183, R184). -/
def Obligations.InOrderSegmentsAssembleThePayload : Prop :=
  ∀ (segs : List (List Byte)) (s : State), 1 ≤ segs.length → segs.length ≤ 255 → segs.flatten.length ≤ s.params.maxExt →
    ∃ t, execSeq (segs.mapIdx fun k d => .extSeg (BitVec.ofNat 8 segs.length) (BitVec.ofNat 8 (k + 1)) d) s = .next t ∧
      t.extDone = true ∧ t.extAsm = false ∧ t.cmdStatus = .ok ∧ holds t.extBuf t.extLen segs.flatten ∧
      t.outputs = s.outputs ++ [.extDone (BitVec.ofNat 16 segs.flatten.length)]

/-- Only `EXT.SEG` and reset write the assembler's state (R32). -/
def Obligations.AssemblerWrittenOnlyByExtSeg : Prop :=
  ∀ (i : Instr) (s t : State), exec i s = .next t → (∀ a b d, i ≠ .extSeg a b d) → i ≠ .evReset →
    t.extAsm = s.extAsm ∧ t.extDone = s.extDone ∧ t.extTotal = s.extTotal ∧ t.extNext = s.extNext ∧
    t.extLen = s.extLen ∧ t.extBuf = s.extBuf

/-! ### Debounce engine -/

/-- `EV.EDGE` records the level, then captures it and restarts the timer if the pin was not pending, or clears the pending bit as a
bounce, restarting the timer only if the parameter says so; no other pin's bits change and nothing is emitted (R201, R202). -/
def Obligations.EdgeIsCapturedOrBounced : Prop :=
  ∀ (pin : Byte) (level : Bool) (s : State),
    s.params.debPresent = true → pin.toNat < s.params.nPins → s.params.nPins ≤ 32 →
    ∃ t, exec (.evEdge pin level) s = .next t ∧
      t = { s with pinPhys := t.pinPhys, debLevel := t.debLevel, debPend := t.debPend,
                   debRun := if pinBit s.debPend pin.toNat && !s.params.debRestartOnBounce then s.debRun else true,
                   debStart := if pinBit s.debPend pin.toNat && !s.params.debRestartOnBounce then s.debStart else s.now } ∧
      (∀ p, pinBit t.pinPhys p = if p = pin.toNat then level else pinBit s.pinPhys p) ∧
      (∀ p, pinBit t.debPend p = if p = pin.toNat then !pinBit s.debPend p else pinBit s.debPend p) ∧
      (∀ p, pinBit t.debLevel p =
        if p = pin.toNat ∧ pinBit s.debPend p = false then level else pinBit s.debLevel p)

/-- The tick at which the confirmation timer is due emits, in ascending pin order and after any outputs of the window close, one
event for every pending pin whose level is still the captured one, pressed for the low level; it clears every pending bit, stops the
timer, and leaves the levels and the start tick (R203, R204). -/
def Obligations.ConfirmationEmitsInPinOrder : Prop :=
  ∀ s : State, valuedBelow s.rxWin s.rxCnt → s.params.debPresent = true → s.debRun = true →
    s.params.tDeb ≤ (s.now + 1#32 - s.debStart).toNat →
    ∃ t received, exec .evTick s = .next t ∧ (s.rxCnt = 0 → received = []) ∧ (∀ p b, .button p b ∉ received) ∧
      t.outputs = s.outputs ++ received ++
        (((List.range s.params.nPins).filter fun p =>
          pinBit s.debPend p && (pinBit s.pinPhys p == pinBit s.debLevel p)).map fun p => .button p (!pinBit s.debLevel p)) ∧
      (∀ p, pinBit t.debPend p = if p < s.params.nPins then false else pinBit s.debPend p) ∧
      t.debRun = false ∧ t.debLevel = s.debLevel ∧ t.debStart = s.debStart ∧ t.pinPhys = s.pinPhys

/-- A burst of alternating edges on a pin that is not pending, consecutive edges less than `P_T_DEB` ticks apart, followed by at least
`P_T_DEB` ticks of quiet, gives exactly one event for that pin when the number of edges is odd, reporting the final level, and none
when it is even, whatever `P_DEB_RESTART_ON_BOUNCE` (R207). -/
def Obligations.EdgeBurstGivesOneEventOrNone : Prop :=
  ∀ (pin : Byte) (first : Bool) (gaps : List Nat) (quiet : Nat) (s : State),
    s.Inv → s.params.debPresent = true → pin.toNat < s.params.nPins → pinBit s.debPend pin.toNat = false →
    (∀ g ∈ gaps, g < s.params.tDeb) → s.params.tDeb ≤ quiet →
    ∃ t new, execSeq (edgeBurst pin first (gaps ++ [quiet])) s = .next t ∧ t.outputs = s.outputs ++ new ∧
      new.filter (isButtonOf pin.toNat) = if gaps.length % 2 = 0 then [.button pin.toNat (!first)] else []

/-- Without DEB, `EV.EDGE` is refused, a tick leaves DEB's fields and emits no button event, and registers 0x12 to 0x16 read as
`BAD_REG` (R9). Two things here are the model's choices: that the refusal's name is DEB's absence also for a pin at or above
`P_N_PINS`, where R89 gives two grounds and no order (log entry 11), and that the fields are there, and stay, although R9 says the
state does not exist (log entry 9). -/
def Obligations.WithoutDebNothingOfItActs : Prop :=
  ∀ s : State, s.params.debPresent = false →
    (∀ pin level, exec (.evEdge pin level) s = .refused .debAbsent) ∧
    (∀ t, exec .evTick s = .next t →
      t.debLevel = s.debLevel ∧ t.debPend = s.debPend ∧ t.debRun = s.debRun ∧ t.debStart = s.debStart ∧ t.pinPhys = s.pinPhys ∧
      ∃ new, t.outputs = s.outputs ++ new ∧ ∀ p b, .button p b ∉ new) ∧
    (∀ r : Byte, 0x12 ≤ r.toNat → r.toNat ≤ 0x16 → exec (.rdReg r) s = .next { s with cmdStatus := .badReg })

/-! ### Read-out -/

/-- `RD.REG` outputs the register's fields at their places, all other bits 0, of the state as it was when the record began, and
changes only `cmd_status`; a reserved number fails with `BAD_REG` (R37, R230, R231). -/
def Obligations.RdRegReadsEveryRegister : Prop :=
  ∀ s : State,
    (∀ x ∈ [(0x00, s.crc.toNat), (0x01, (statusCode s.cmdStatus).toNat),
        (0x02, (resultCode s.resCode).toNat + 16 * s.resValid.toNat + 32 * s.resLost.toNat + 64 * s.nackReq.toNat),
        (0x03, s.resId.toNat), (0x04, s.resType.toNat), (0x05, s.resLen.toNat), (0x06, s.resCrcRx.toNat),
        (0x07, s.resCrcCalc.toNat), (0x08, s.resN % 2 ^ 16), (0x09, s.rxCnt % 2 ^ 9 + 512 * s.rxOvf.toNat),
        (0x0A, s.rxLast.toNat), (0x0B, s.txLen % 2 ^ 16), (0x0C, (kindCode s.txKind).toNat),
        (0x0D, s.extAsm.toNat + 2 * s.extDone.toNat), (0x0E, s.extTotal.toNat), (0x0F, s.extNext % 2 ^ 9),
        (0x10, s.extLen % 2 ^ 16), (0x11, s.now.toNat)],
      exec (.rdReg (BitVec.ofNat 8 x.1)) s =
        .next { s with cmdStatus := .ok, outputs := s.outputs ++ [.read (BitVec.ofNat 32 x.2)] }) ∧
    (s.params.debPresent = true →
      ∀ x ∈ [(0x12, s.debLevel.toNat), (0x13, s.debPend.toNat), (0x14, s.debRun.toNat), (0x15, s.debStart.toNat),
          (0x16, s.pinPhys.toNat)],
        exec (.rdReg (BitVec.ofNat 8 x.1)) s =
          .next { s with cmdStatus := .ok, outputs := s.outputs ++ [.read (BitVec.ofNat 32 x.2)] }) ∧
    (∀ r : Byte, 0x17 ≤ r.toNat ∨ (0x12 ≤ r.toNat ∧ s.params.debPresent = false) →
      exec (.rdReg r) s = .next { s with cmdStatus := .badReg })

/-- The numbers of the command status codes, the result codes and the kinds (R22, R251, R252). -/
def Obligations.CodesHaveTheirNumbers : Prop :=
  [CmdStatus.ok, .encLen, .extHdr, .extSeq, .extOvf, .extNotReady, .badReg, .badIndex, .badOpcode].map
    (fun c => (statusCode c).toNat) = [0, 1, 2, 3, 4, 5, 6, 7, 8] ∧
  [ResCode.none, .frameOk, .ackRx, .nackRx, .crcErr, .lenErr, .malformed].map (fun c => (resultCode c).toNat) =
    [0, 1, 2, 3, 4, 5, 6] ∧
  [TxKind.none, .short, .ext, .ack, .nack].map (fun k => (kindCode k).toNat) = [0, 1, 2, 3, 4]

/-- `RD.BUF` outputs the byte at an index below the buffer's length, fails with `BAD_INDEX` at or above it and for a payload that is not
a valid frame's, and with `BAD_REG` for a selector above 3; it changes only `cmd_status` (R63, R232). -/
def Obligations.RdBufReadsBelowTheLength : Prop :=
  ∀ (sel : Byte) (idx : Half) (s : State),
    let buf := if sel.toNat = 0 then s.resPayload else if sel.toNat = 1 then s.txBuf else if sel.toNat = 2 then s.extBuf else s.rxWin
    let readable :=
      if sel.toNat = 0 then s.resCode = .frameOk ∧ idx.toNat < s.resLen.toNat
      else if sel.toNat = 1 then idx.toNat < s.txLen
      else if sel.toNat = 2 then idx.toNat < s.extLen
      else idx.toNat < s.rxCnt
    (3 < sel.toNat → exec (.rdBuf sel idx) s = .next { s with cmdStatus := .badReg }) ∧
    (sel.toNat ≤ 3 → ¬ readable → exec (.rdBuf sel idx) s = .next { s with cmdStatus := .badIndex }) ∧
    (sel.toNat ≤ 3 → readable → ∀ b, buf.read idx.toNat = some b →
      exec (.rdBuf sel idx) s = .next { s with cmdStatus := .ok, outputs := s.outputs ++ [.read (BitVec.ofNat 32 b.toNat)] })

/-- Reads are idempotent: two reads of the same register or byte with no record between them give the same value, status register
apart, and write only `cmd_status` (R70, R233). -/
def Obligations.ReadsAreIdempotent : Prop :=
  ∀ (i : Instr) (s t : State), ((∃ r, i = .rdReg r ∧ r ≠ 0x01#8) ∨ (∃ a b, i = .rdBuf a b)) → exec i s = .next t →
    t = { s with cmdStatus := t.cmdStatus, outputs := t.outputs } ∧
    ∃ new, new.length ≤ 1 ∧ t.outputs = s.outputs ++ new ∧
      exec i t = .next { t with outputs := t.outputs ++ new }

/-- Inserting a read before any record sequence changes nothing that the sequence does, except what a `RD.REG 0x01` in it reports: the
states after it agree in everything but `cmd_status` and the inserted read's own output (R233). -/
def Obligations.InsertedReadChangesNothingElse : Prop :=
  ∀ (r : Instr) (is : List Instr) (s u t : State),
    ((∃ a, r = .rdReg a) ∨ (∃ a b, r = .rdBuf a b)) → (∀ i ∈ is, i ≠ .rdReg 0x01#8) →
    exec r s = .next u → execSeq is s = .next t →
    ∃ v own new, execSeq is u = .next v ∧ v = { t with cmdStatus := v.cmdStatus, outputs := v.outputs } ∧
      u.outputs = s.outputs ++ own ∧ t.outputs = s.outputs ++ new ∧ v.outputs = s.outputs ++ own ++ new ∧
      ((∃ i ∈ is, isCommand i = true) → v.cmdStatus = t.cmdStatus)

/-! ### Reset -/

/-- `EV.RESET` gives every state element of R22 its reset value of R41, emits nothing, and keeps the parameters; the state is the one of
power-up (R41, R280, R281). That the records still presented and the outputs already emitted stay is the model's reading of R40, which
says that they are no state of the block (log entry 5). -/
def Obligations.ResetRestoresEveryElement : Prop :=
  ∀ s : State,
    exec .evReset s = .next
      { params := s.params, stream := s.stream, outputs := s.outputs, crc := 0x0000#16, cmdStatus := .ok,
        rxWin := [], rxCnt := 0, rxOvf := false, rxLast := 0#32, resValid := false, resCode := .none, resLost := false,
        nackReq := false, resId := 0#8, resType := 0#8, resLen := 0#8, resCrcRx := 0#16, resCrcCalc := 0#16, resN := 0,
        resPayload := [], txBuf := [], txLen := 0, txKind := .none, extBuf := [], extAsm := false, extDone := false,
        extTotal := 0#8, extNext := 0, extLen := 0, now := 0#32, debLevel := s.params.debInitLevel, debPend := 0#32,
        debRun := false, debStart := 0#32, pinPhys := s.params.debInitLevel } ∧
    exec .evReset s = .next { State.resetWith s.params with stream := s.stream, outputs := s.outputs }

/-- The reset state meets the invariant for every parameter setting that meets its constraints, and so does `State.reset`. -/
def Obligations.ResetMeetsTheInvariant : Prop :=
  (∀ p : Params, p.wf → (State.resetWith p).Inv) ∧ State.reset.Inv

/-! ### Whole-machine rules -/

/-- Every step keeps the invariant: R39's bounds and flags, R205, the buffers' canonical form and sizes, every byte below a length
element written (R63), and no timer overdue (R152). -/
def Obligations.StepKeepsTheInvariant : Prop :=
  ∀ s t : State, s.Inv → step s = .next t → t.Inv

/-- No rule reads a byte that no rule has written: a step from a state that meets the invariant never faults (R63). -/
def Obligations.InvariantRulesOutFaults : Prop :=
  ∀ (s : State) (f : Fault), s.Inv → step s ≠ .fault f

/-- For every parameter setting and every record stream, no run from reset ever faults (R63, R41). -/
def Obligations.RunsFromResetNeverFault : Prop :=
  ∀ (p : Params) (bytes : List Byte), p.wf → NeverFaults { State.resetWith p with stream := bytes }

/-- No step writes a parameter (R7). -/
def Obligations.ParametersAreNeverWritten : Prop :=
  ∀ s t : State, step s = .next t → t.params = s.params

/-- Which codes a record can end in (R24, R253): events never write `cmd_status`, except `EV.RESET`, which sets it to `OK`. -/
def Obligations.EachRecordEndsInItsStatusCodes : Prop :=
  ∀ (i : Instr) (s t : State), exec i s = .next t →
    match i with
    | .encShort _ _ _ => t.cmdStatus = .ok ∨ t.cmdStatus = .encLen
    | .encExt _ _ _ => t.cmdStatus = .ok ∨ t.cmdStatus = .encLen
    | .encExta _ _ => t.cmdStatus = .ok ∨ t.cmdStatus = .extNotReady
    | .extSeg _ _ _ => t.cmdStatus = .ok ∨ t.cmdStatus = .extHdr ∨ t.cmdStatus = .extSeq ∨ t.cmdStatus = .extOvf
    | .rdReg _ => t.cmdStatus = .ok ∨ t.cmdStatus = .badReg
    | .rdBuf _ _ => t.cmdStatus = .ok ∨ t.cmdStatus = .badReg ∨ t.cmdStatus = .badIndex
    | .evRxb _ => t.cmdStatus = s.cmdStatus
    | .evTick => t.cmdStatus = s.cmdStatus
    | .evEdge _ _ => t.cmdStatus = s.cmdStatus
    | .evReset => t.cmdStatus = .ok
    | .crcClr | .crcByte _ | .crcBlk _ | .encAck | .encNack | .decShort _ | .rxClr => t.cmdStatus = .ok

/-- Failures are precise (R254): a command that ends in an error code has changed nothing but `cmd_status`, and for `EXT.SEG` the
discarded assembly. -/
def Obligations.FailuresArePrecise : Prop :=
  ∀ (i : Instr) (s t : State), isCommand i = true → exec i s = .next t → t.cmdStatus ≠ .ok →
    t = { s with cmdStatus := t.cmdStatus } ∨
    ((∃ a b d, i = .extSeg a b d) ∧
      t = { s with cmdStatus := t.cmdStatus, extAsm := false, extDone := false, extTotal := 0#8, extNext := 0, extLen := 0 })

/-- `now` advances by 1 on each `EV.TICK` and is written by nothing else but reset (R34). -/
def Obligations.OnlyTicksAdvanceNow : Prop :=
  ∀ (i : Instr) (s t : State), exec i s = .next t →
    (i = .evTick → t.now = s.now + 1#32) ∧ (i ≠ .evTick → i ≠ .evReset → t.now = s.now)

/-- DEB's state is written only by `EV.EDGE`, ticks and reset, its levels and its start tick only by `EV.EDGE` and reset (R35, R37). -/
def Obligations.DebounceWrittenOnlyByEdgesAndTicks : Prop :=
  ∀ (i : Instr) (s t : State), exec i s = .next t → (∀ p l, i ≠ .evEdge p l) → i ≠ .evReset →
    t.debLevel = s.debLevel ∧ t.debStart = s.debStart ∧ t.pinPhys = s.pinPhys ∧
    (i ≠ .evTick → t.debPend = s.debPend ∧ t.debRun = s.debRun)

/-- Outputs are only appended, and each kind of output event comes only from the records that emit it, a button event of a pin below
`P_N_PINS`; `OUT.TXREADY`, `OUT.RXRESULT`, `OUT.NACKREQ` and `OUT.EXTDONE` report the state that their record left (R95). -/
def Obligations.OutputsComeFromTheirRecords : Prop :=
  ∀ (i : Instr) (s t : State), exec i s = .next t →
    ∃ new, t.outputs = s.outputs ++ new ∧ ∀ e ∈ new,
      match e with
      | .read _ => (∃ r, i = .rdReg r) ∨ (∃ a b, i = .rdBuf a b)
      | .txReady k n => t.txKind = k ∧ BitVec.ofNat 16 t.txLen = n ∧ t.cmdStatus = .ok ∧
          ((∃ a b d, i = .encShort a b d) ∨ (∃ a b d, i = .encExt a b d) ∨ (∃ a b, i = .encExta a b) ∨ i = .encAck ∨ i = .encNack)
      | .rxResult c => t.resCode = c ∧ t.resValid = true ∧ ((∃ d, i = .decShort d) ∨ i = .evTick)
      | .nackReq => t.resCode = .crcErr ∧ t.nackReq = true ∧ ((∃ d, i = .decShort d) ∨ i = .evTick)
      | .extDone n => t.extDone = true ∧ BitVec.ofNat 16 t.extLen = n ∧ (∃ a b d, i = .extSeg a b d)
      | .button p _ => p < s.params.nPins ∧ i = .evTick
end

