-- ==== Sys2Proof/Laws/Memory.lean ====
section
/-! SUPPORT. What reading and writing a buffer do (Sys2Proof/Machine/Ops.lean), said once. -/

namespace Sys2Proof.Machine

@[simp] theorem Memory.read_nil (i : Nat) : Memory.read [] i = none := rfl

@[simp] theorem Memory.writeBytes_nil (m : Memory) (base : Nat) : m.writeBytes base [] = m := rfl

@[simp] theorem Memory.readBytes_zero (m : Memory) (base : Nat) : m.readBytes base 0 = some [] := rfl

/-- A read after a write of one byte. -/
theorem Memory.read_write (m : Memory) (i j : Nat) (b : Byte) :
    (m.write i b).read j = if i = j then some b else m.read j := by
  induction m with
  | nil => simp [Memory.write, Memory.read]
  | cons c m ih =>
    obtain ⟨k, c⟩ := c
    simp only [Memory.write]
    split
    · simp [Memory.read]
    · split
      · subst_vars; by_cases h : k = j <;> simp [Memory.read, h]
      · by_cases h : k = j
        · subst h; simp_all [Memory.read]
        · simp [Memory.read, h, ih]

@[simp] theorem Memory.read_write_same (m : Memory) (i : Nat) (b : Byte) : (m.write i b).read i = some b := by
  simp [Memory.read_write]

theorem Memory.read_write_other (m : Memory) {i j : Nat} (b : Byte) (h : i ≠ j) : (m.write i b).read j = m.read j := by
  simp [Memory.read_write, h]

/-- A read after a write of a byte sequence. -/
theorem Memory.read_writeBytes (m : Memory) (base : Nat) (bs : List Byte) (j : Nat) :
    (m.writeBytes base bs).read j = if base ≤ j ∧ j < base + bs.length then bs[j - base]? else m.read j := by
  induction bs generalizing m base with
  | nil => simp [Memory.writeBytes]
  | cons b bs ih =>
    rw [Memory.writeBytes, ih, Memory.read_write]
    by_cases h : base = j
    · subst h
      rw [if_neg (by omega), if_pos rfl, if_pos (by simp)]; simp
    · by_cases h2 : base + 1 ≤ j ∧ j < base + 1 + bs.length
      · rw [if_pos h2, if_pos (by simp only [List.length_cons]; omega),
          show j - base = (j - (base + 1)) + 1 by omega, List.getElem?_cons_succ]
      · rw [if_neg h2, if_neg h, if_neg (by simp only [List.length_cons]; omega)]

/-- A byte outside a written range keeps its value. -/
theorem Memory.read_writeBytes_outside (m : Memory) (base : Nat) (bs : List Byte) (j : Nat)
    (h : j < base ∨ base + bs.length ≤ j) : (m.writeBytes base bs).read j = m.read j := by
  rw [Memory.read_writeBytes, if_neg (by omega)]

/-- A byte inside a written range is the sequence's. -/
theorem Memory.read_writeBytes_inside (m : Memory) (base : Nat) (bs : List Byte) (k : Nat) (h : k < bs.length) :
    (m.writeBytes base bs).read (base + k) = bs[k]? := by
  rw [Memory.read_writeBytes, if_pos (by omega)]; simp

/-- Which indices a write leaves listed. -/
theorem Memory.mem_write {m : Memory} {i : Nat} {b : Byte} {c : Host.Cell} (h : c ∈ m.write i b) : c.1 = i ∨ c ∈ m := by
  induction m with
  | nil => simp [Memory.write] at h; simp [h]
  | cons d m ih =>
    obtain ⟨k, d⟩ := d
    simp only [Memory.write] at h
    split at h
    · simp at h; rcases h with h | h | h <;> simp [h]
    · split at h
      · simp at h; rcases h with h | h <;> simp [h]
      · simp at h; rcases h with h | h
        · simp [h]
        · rcases ih h with h | h <;> simp [h]

/-- A write keeps the canonical form. -/
theorem Memory.write_wf {m : Memory} (h : m.wf) (i : Nat) (b : Byte) : (m.write i b).wf := by
  induction m with
  | nil => simp [Memory.write, Memory.wf]
  | cons c m ih =>
    obtain ⟨k, c⟩ := c
    rw [Memory.wf, List.pairwise_cons] at h
    simp only [Memory.write]
    split
    · refine List.pairwise_cons.2 ⟨fun d hd => ?_, List.pairwise_cons.2 h⟩
      rcases List.mem_cons.1 hd with rfl | hd
      · assumption
      · exact Nat.lt_trans ‹i < k› (h.1 d hd)
    · split
      · subst_vars; exact List.pairwise_cons.2 h
      · refine List.pairwise_cons.2 ⟨fun d hd => ?_, ih h.2⟩
        rcases Memory.mem_write hd with e | hd
        · show k < d.1; omega
        · exact h.1 d hd

/-- A write of a byte sequence keeps the canonical form. -/
theorem Memory.writeBytes_wf {m : Memory} (h : m.wf) (base : Nat) (bs : List Byte) : (m.writeBytes base bs).wf := by
  induction bs generalizing m base with
  | nil => exact h
  | cons b bs ih => exact ih (Memory.write_wf h base b) (base + 1)

/-- A write below the size keeps the buffer within its size. -/
theorem Memory.write_withinSize {m : Memory} {n i : Nat} (h : withinSize m n) (hi : i < n) (b : Byte) :
    withinSize (m.write i b) n := by
  intro c hc
  rcases Memory.mem_write hc with e | hc
  · omega
  · exact h c hc

theorem Memory.writeBytes_withinSize {m : Memory} {n base : Nat} {bs : List Byte} (h : withinSize m n)
    (hn : base + bs.length ≤ n) : withinSize (m.writeBytes base bs) n := by
  induction bs generalizing m base with
  | nil => exact h
  | cons b bs ih =>
    rw [List.length_cons] at hn
    exact ih (Memory.write_withinSize h (by omega) b) (by omega)

/-- A read of a range that has values answers them. -/
theorem Memory.readBytes_of_holds {m : Memory} {base : Nat} {w : List Byte}
    (h : ∀ i, i < w.length → m.read (base + i) = w[i]?) : m.readBytes base w.length = some w := by
  induction w generalizing base with
  | nil => rfl
  | cons b w ih =>
    have h0 := h 0 (by simp)
    have hs : ∀ i, i < w.length → m.read (base + 1 + i) = w[i]? := fun i hi => by
      have := h (i + 1) (by simp; omega)
      rwa [List.getElem?_cons_succ, show base + (i + 1) = base + 1 + i by omega] at this
    simp only [Nat.add_zero, List.getElem?_cons_zero] at h0
    simp [Memory.readBytes, h0, ih hs]

/-- What a read of a range says, when it answers. -/
theorem Memory.readBytes_some {m : Memory} {base n : Nat} {w : List Byte} (h : m.readBytes base n = some w) :
    w.length = n ∧ ∀ i, i < n → m.read (base + i) = w[i]? := by
  induction n generalizing base w with
  | zero => simp at h; subst h; simp
  | succ n ih =>
    rw [Memory.readBytes] at h
    split at h
    · rename_i b bs hb hbs
      cases h
      obtain ⟨hl, hv⟩ := ih hbs
      refine ⟨by simp [hl], fun i hi => ?_⟩
      cases i with
      | zero => simpa using hb
      | succ i =>
        rw [List.getElem?_cons_succ, ← hv i (by omega)]
        congr 1; omega
    · cases h

/-- A range reads whole exactly when each of its bytes has a value. -/
theorem Memory.readBytes_isSome {m : Memory} {n : Nat} (h : valuedBelow m n) : ∃ w, m.readBytes 0 n = some w := by
  have key : ∀ k base, (∀ i, i < k → (m.read (base + i)).isSome = true) → ∃ w, m.readBytes base k = some w := by
    intro k
    induction k with
    | zero => exact fun base _ => ⟨[], rfl⟩
    | succ k ih =>
      intro base hb
      obtain ⟨b, h0⟩ := Option.isSome_iff_exists.1 (hb 0 (by omega))
      obtain ⟨w, hw⟩ := ih (base + 1) (fun i hi => by
        have := hb (i + 1) (by omega)
        rwa [show base + (i + 1) = base + 1 + i by omega] at this)
      exact ⟨b :: w, by simp only [Nat.add_zero] at h0; simp [Memory.readBytes, h0, hw]⟩
  exact key n 0 (by simpa using h)

/-- A buffer whose bytes below `n` have values holds a byte sequence there. -/
theorem holds_of_valuedBelow {m : Memory} {n : Nat} (h : valuedBelow m n) : ∃ w, holds m n w := by
  obtain ⟨w, hw⟩ := Memory.readBytes_isSome h
  obtain ⟨hl, hv⟩ := Memory.readBytes_some hw
  exact ⟨w, hl, by simpa using hv⟩

/-- Reading the bytes a buffer holds. -/
theorem Memory.readBytes_holds {m : Memory} {n : Nat} {w : List Byte} (h : holds m n w) : m.readBytes 0 n = some w := by
  obtain ⟨rfl, hv⟩ := h
  exact Memory.readBytes_of_holds (by simpa using hv)

/-- After a write from index 0 the buffer holds what was written. -/
theorem holds_writeBytes (m : Memory) (bs : List Byte) : holds (m.writeBytes 0 bs) bs.length bs :=
  ⟨rfl, fun i hi => by simpa using Memory.read_writeBytes_inside m 0 bs i hi⟩

theorem valuedBelow_of_holds {m : Memory} {n : Nat} {w : List Byte} (h : holds m n w) : valuedBelow m n := by
  intro i hi
  rw [h.2 i hi]
  simp [h.1, hi]

/-- A write below keeps what has a value, and appends one. -/
theorem valuedBelow_write {m : Memory} {n : Nat} (h : valuedBelow m n) (b : Byte) : valuedBelow (m.write n b) (n + 1) := by
  intro i hi
  rw [Memory.read_write]
  split
  · rfl
  · exact h i (by omega)

/-- Bytes appended to a buffer's values. -/
theorem valuedBelow_append {m : Memory} {n : Nat} (h : valuedBelow m n) (bs : List Byte) :
    valuedBelow (m.writeBytes n bs) (n + bs.length) := by
  intro i hi
  rw [Memory.read_writeBytes]
  split
  · rw [List.getElem?_eq_getElem (by omega)]; rfl
  · exact h i (by omega)

/-- Bytes appended to what a buffer holds. -/
theorem holds_append {m : Memory} {n : Nat} {w : List Byte} (h : holds m n w) (bs : List Byte) :
    holds (m.writeBytes n bs) (n + bs.length) (w ++ bs) := by
  obtain ⟨rfl, hv⟩ := h
  refine ⟨by simp, fun i hi => ?_⟩
  rw [Memory.read_writeBytes]
  split
  · rw [List.getElem?_append_right (by omega)]
  · rw [List.getElem?_append_left (by omega)]; exact hv i (by omega)

/-- Every buffer of the reset state is in canonical form. -/
theorem State.resetWith_wf (p : Params) :
    (State.resetWith p).rxWin.wf ∧ (State.resetWith p).resPayload.wf ∧ (State.resetWith p).txBuf.wf ∧
      (State.resetWith p).extBuf.wf := by
  simp [State.resetWith]

end Sys2Proof.Machine
end

