-- ==== Sys2Proof/Laws/State.lean ====
section
/-! SUPPORT. Each field after each of the shared updates of the state: true by rfl, so that no proof unfolds one. -/

namespace Sys2Proof.Machine

section -- emit
variable (e : Output) (s : State)
@[simp] theorem emit_params : (emit e s).params = s.params := rfl
@[simp] theorem emit_stream : (emit e s).stream = s.stream := rfl
@[simp] theorem emit_outputs : (emit e s).outputs = s.outputs ++ [e] := rfl
@[simp] theorem emit_crc : (emit e s).crc = s.crc := rfl
@[simp] theorem emit_cmdStatus : (emit e s).cmdStatus = s.cmdStatus := rfl
@[simp] theorem emit_rxWin : (emit e s).rxWin = s.rxWin := rfl
@[simp] theorem emit_rxCnt : (emit e s).rxCnt = s.rxCnt := rfl
@[simp] theorem emit_rxOvf : (emit e s).rxOvf = s.rxOvf := rfl
@[simp] theorem emit_rxLast : (emit e s).rxLast = s.rxLast := rfl
@[simp] theorem emit_resValid : (emit e s).resValid = s.resValid := rfl
@[simp] theorem emit_resCode : (emit e s).resCode = s.resCode := rfl
@[simp] theorem emit_resLost : (emit e s).resLost = s.resLost := rfl
@[simp] theorem emit_nackReq : (emit e s).nackReq = s.nackReq := rfl
@[simp] theorem emit_resId : (emit e s).resId = s.resId := rfl
@[simp] theorem emit_resType : (emit e s).resType = s.resType := rfl
@[simp] theorem emit_resLen : (emit e s).resLen = s.resLen := rfl
@[simp] theorem emit_resCrcRx : (emit e s).resCrcRx = s.resCrcRx := rfl
@[simp] theorem emit_resCrcCalc : (emit e s).resCrcCalc = s.resCrcCalc := rfl
@[simp] theorem emit_resN : (emit e s).resN = s.resN := rfl
@[simp] theorem emit_resPayload : (emit e s).resPayload = s.resPayload := rfl
@[simp] theorem emit_txBuf : (emit e s).txBuf = s.txBuf := rfl
@[simp] theorem emit_txLen : (emit e s).txLen = s.txLen := rfl
@[simp] theorem emit_txKind : (emit e s).txKind = s.txKind := rfl
@[simp] theorem emit_extBuf : (emit e s).extBuf = s.extBuf := rfl
@[simp] theorem emit_extAsm : (emit e s).extAsm = s.extAsm := rfl
@[simp] theorem emit_extDone : (emit e s).extDone = s.extDone := rfl
@[simp] theorem emit_extTotal : (emit e s).extTotal = s.extTotal := rfl
@[simp] theorem emit_extNext : (emit e s).extNext = s.extNext := rfl
@[simp] theorem emit_extLen : (emit e s).extLen = s.extLen := rfl
@[simp] theorem emit_now : (emit e s).now = s.now := rfl
@[simp] theorem emit_debLevel : (emit e s).debLevel = s.debLevel := rfl
@[simp] theorem emit_debPend : (emit e s).debPend = s.debPend := rfl
@[simp] theorem emit_debRun : (emit e s).debRun = s.debRun := rfl
@[simp] theorem emit_debStart : (emit e s).debStart = s.debStart := rfl
@[simp] theorem emit_pinPhys : (emit e s).pinPhys = s.pinPhys := rfl
end

section -- setStatus
variable (c : CmdStatus) (s : State)
@[simp] theorem setStatus_params : (setStatus c s).params = s.params := rfl
@[simp] theorem setStatus_stream : (setStatus c s).stream = s.stream := rfl
@[simp] theorem setStatus_outputs : (setStatus c s).outputs = s.outputs := rfl
@[simp] theorem setStatus_crc : (setStatus c s).crc = s.crc := rfl
@[simp] theorem setStatus_cmdStatus : (setStatus c s).cmdStatus = c := rfl
@[simp] theorem setStatus_rxWin : (setStatus c s).rxWin = s.rxWin := rfl
@[simp] theorem setStatus_rxCnt : (setStatus c s).rxCnt = s.rxCnt := rfl
@[simp] theorem setStatus_rxOvf : (setStatus c s).rxOvf = s.rxOvf := rfl
@[simp] theorem setStatus_rxLast : (setStatus c s).rxLast = s.rxLast := rfl
@[simp] theorem setStatus_resValid : (setStatus c s).resValid = s.resValid := rfl
@[simp] theorem setStatus_resCode : (setStatus c s).resCode = s.resCode := rfl
@[simp] theorem setStatus_resLost : (setStatus c s).resLost = s.resLost := rfl
@[simp] theorem setStatus_nackReq : (setStatus c s).nackReq = s.nackReq := rfl
@[simp] theorem setStatus_resId : (setStatus c s).resId = s.resId := rfl
@[simp] theorem setStatus_resType : (setStatus c s).resType = s.resType := rfl
@[simp] theorem setStatus_resLen : (setStatus c s).resLen = s.resLen := rfl
@[simp] theorem setStatus_resCrcRx : (setStatus c s).resCrcRx = s.resCrcRx := rfl
@[simp] theorem setStatus_resCrcCalc : (setStatus c s).resCrcCalc = s.resCrcCalc := rfl
@[simp] theorem setStatus_resN : (setStatus c s).resN = s.resN := rfl
@[simp] theorem setStatus_resPayload : (setStatus c s).resPayload = s.resPayload := rfl
@[simp] theorem setStatus_txBuf : (setStatus c s).txBuf = s.txBuf := rfl
@[simp] theorem setStatus_txLen : (setStatus c s).txLen = s.txLen := rfl
@[simp] theorem setStatus_txKind : (setStatus c s).txKind = s.txKind := rfl
@[simp] theorem setStatus_extBuf : (setStatus c s).extBuf = s.extBuf := rfl
@[simp] theorem setStatus_extAsm : (setStatus c s).extAsm = s.extAsm := rfl
@[simp] theorem setStatus_extDone : (setStatus c s).extDone = s.extDone := rfl
@[simp] theorem setStatus_extTotal : (setStatus c s).extTotal = s.extTotal := rfl
@[simp] theorem setStatus_extNext : (setStatus c s).extNext = s.extNext := rfl
@[simp] theorem setStatus_extLen : (setStatus c s).extLen = s.extLen := rfl
@[simp] theorem setStatus_now : (setStatus c s).now = s.now := rfl
@[simp] theorem setStatus_debLevel : (setStatus c s).debLevel = s.debLevel := rfl
@[simp] theorem setStatus_debPend : (setStatus c s).debPend = s.debPend := rfl
@[simp] theorem setStatus_debRun : (setStatus c s).debRun = s.debRun := rfl
@[simp] theorem setStatus_debStart : (setStatus c s).debStart = s.debStart := rfl
@[simp] theorem setStatus_pinPhys : (setStatus c s).pinPhys = s.pinPhys := rfl
end

section -- advance
variable (rest : List Byte) (s : State)
@[simp] theorem advance_params : (advance rest s).params = s.params := rfl
@[simp] theorem advance_stream : (advance rest s).stream = rest := rfl
@[simp] theorem advance_outputs : (advance rest s).outputs = s.outputs := rfl
@[simp] theorem advance_crc : (advance rest s).crc = s.crc := rfl
@[simp] theorem advance_cmdStatus : (advance rest s).cmdStatus = s.cmdStatus := rfl
@[simp] theorem advance_rxWin : (advance rest s).rxWin = s.rxWin := rfl
@[simp] theorem advance_rxCnt : (advance rest s).rxCnt = s.rxCnt := rfl
@[simp] theorem advance_rxOvf : (advance rest s).rxOvf = s.rxOvf := rfl
@[simp] theorem advance_rxLast : (advance rest s).rxLast = s.rxLast := rfl
@[simp] theorem advance_resValid : (advance rest s).resValid = s.resValid := rfl
@[simp] theorem advance_resCode : (advance rest s).resCode = s.resCode := rfl
@[simp] theorem advance_resLost : (advance rest s).resLost = s.resLost := rfl
@[simp] theorem advance_nackReq : (advance rest s).nackReq = s.nackReq := rfl
@[simp] theorem advance_resId : (advance rest s).resId = s.resId := rfl
@[simp] theorem advance_resType : (advance rest s).resType = s.resType := rfl
@[simp] theorem advance_resLen : (advance rest s).resLen = s.resLen := rfl
@[simp] theorem advance_resCrcRx : (advance rest s).resCrcRx = s.resCrcRx := rfl
@[simp] theorem advance_resCrcCalc : (advance rest s).resCrcCalc = s.resCrcCalc := rfl
@[simp] theorem advance_resN : (advance rest s).resN = s.resN := rfl
@[simp] theorem advance_resPayload : (advance rest s).resPayload = s.resPayload := rfl
@[simp] theorem advance_txBuf : (advance rest s).txBuf = s.txBuf := rfl
@[simp] theorem advance_txLen : (advance rest s).txLen = s.txLen := rfl
@[simp] theorem advance_txKind : (advance rest s).txKind = s.txKind := rfl
@[simp] theorem advance_extBuf : (advance rest s).extBuf = s.extBuf := rfl
@[simp] theorem advance_extAsm : (advance rest s).extAsm = s.extAsm := rfl
@[simp] theorem advance_extDone : (advance rest s).extDone = s.extDone := rfl
@[simp] theorem advance_extTotal : (advance rest s).extTotal = s.extTotal := rfl
@[simp] theorem advance_extNext : (advance rest s).extNext = s.extNext := rfl
@[simp] theorem advance_extLen : (advance rest s).extLen = s.extLen := rfl
@[simp] theorem advance_now : (advance rest s).now = s.now := rfl
@[simp] theorem advance_debLevel : (advance rest s).debLevel = s.debLevel := rfl
@[simp] theorem advance_debPend : (advance rest s).debPend = s.debPend := rfl
@[simp] theorem advance_debRun : (advance rest s).debRun = s.debRun := rfl
@[simp] theorem advance_debStart : (advance rest s).debStart = s.debStart := rfl
@[simp] theorem advance_pinPhys : (advance rest s).pinPhys = s.pinPhys := rfl
end

section -- transmit
variable (k : TxKind) (w : List Byte) (s : State)
@[simp] theorem transmit_params : (transmit k w s).params = s.params := rfl
@[simp] theorem transmit_stream : (transmit k w s).stream = s.stream := rfl
@[simp] theorem transmit_outputs : (transmit k w s).outputs = s.outputs ++ [.txReady k (len16 w.length)] := rfl
@[simp] theorem transmit_crc : (transmit k w s).crc = s.crc := rfl
@[simp] theorem transmit_cmdStatus : (transmit k w s).cmdStatus = s.cmdStatus := rfl
@[simp] theorem transmit_rxWin : (transmit k w s).rxWin = s.rxWin := rfl
@[simp] theorem transmit_rxCnt : (transmit k w s).rxCnt = s.rxCnt := rfl
@[simp] theorem transmit_rxOvf : (transmit k w s).rxOvf = s.rxOvf := rfl
@[simp] theorem transmit_rxLast : (transmit k w s).rxLast = s.rxLast := rfl
@[simp] theorem transmit_resValid : (transmit k w s).resValid = s.resValid := rfl
@[simp] theorem transmit_resCode : (transmit k w s).resCode = s.resCode := rfl
@[simp] theorem transmit_resLost : (transmit k w s).resLost = s.resLost := rfl
@[simp] theorem transmit_nackReq : (transmit k w s).nackReq = s.nackReq := rfl
@[simp] theorem transmit_resId : (transmit k w s).resId = s.resId := rfl
@[simp] theorem transmit_resType : (transmit k w s).resType = s.resType := rfl
@[simp] theorem transmit_resLen : (transmit k w s).resLen = s.resLen := rfl
@[simp] theorem transmit_resCrcRx : (transmit k w s).resCrcRx = s.resCrcRx := rfl
@[simp] theorem transmit_resCrcCalc : (transmit k w s).resCrcCalc = s.resCrcCalc := rfl
@[simp] theorem transmit_resN : (transmit k w s).resN = s.resN := rfl
@[simp] theorem transmit_resPayload : (transmit k w s).resPayload = s.resPayload := rfl
@[simp] theorem transmit_txBuf : (transmit k w s).txBuf = s.txBuf.writeBytes 0 w := rfl
@[simp] theorem transmit_txLen : (transmit k w s).txLen = w.length := rfl
@[simp] theorem transmit_txKind : (transmit k w s).txKind = k := rfl
@[simp] theorem transmit_extBuf : (transmit k w s).extBuf = s.extBuf := rfl
@[simp] theorem transmit_extAsm : (transmit k w s).extAsm = s.extAsm := rfl
@[simp] theorem transmit_extDone : (transmit k w s).extDone = s.extDone := rfl
@[simp] theorem transmit_extTotal : (transmit k w s).extTotal = s.extTotal := rfl
@[simp] theorem transmit_extNext : (transmit k w s).extNext = s.extNext := rfl
@[simp] theorem transmit_extLen : (transmit k w s).extLen = s.extLen := rfl
@[simp] theorem transmit_now : (transmit k w s).now = s.now := rfl
@[simp] theorem transmit_debLevel : (transmit k w s).debLevel = s.debLevel := rfl
@[simp] theorem transmit_debPend : (transmit k w s).debPend = s.debPend := rfl
@[simp] theorem transmit_debRun : (transmit k w s).debRun = s.debRun := rfl
@[simp] theorem transmit_debStart : (transmit k w s).debStart = s.debStart := rfl
@[simp] theorem transmit_pinPhys : (transmit k w s).pinPhys = s.pinPhys := rfl
end

section -- extAbort
variable (s : State)
@[simp] theorem extAbort_params : (extAbort s).params = s.params := rfl
@[simp] theorem extAbort_stream : (extAbort s).stream = s.stream := rfl
@[simp] theorem extAbort_outputs : (extAbort s).outputs = s.outputs := rfl
@[simp] theorem extAbort_crc : (extAbort s).crc = s.crc := rfl
@[simp] theorem extAbort_cmdStatus : (extAbort s).cmdStatus = s.cmdStatus := rfl
@[simp] theorem extAbort_rxWin : (extAbort s).rxWin = s.rxWin := rfl
@[simp] theorem extAbort_rxCnt : (extAbort s).rxCnt = s.rxCnt := rfl
@[simp] theorem extAbort_rxOvf : (extAbort s).rxOvf = s.rxOvf := rfl
@[simp] theorem extAbort_rxLast : (extAbort s).rxLast = s.rxLast := rfl
@[simp] theorem extAbort_resValid : (extAbort s).resValid = s.resValid := rfl
@[simp] theorem extAbort_resCode : (extAbort s).resCode = s.resCode := rfl
@[simp] theorem extAbort_resLost : (extAbort s).resLost = s.resLost := rfl
@[simp] theorem extAbort_nackReq : (extAbort s).nackReq = s.nackReq := rfl
@[simp] theorem extAbort_resId : (extAbort s).resId = s.resId := rfl
@[simp] theorem extAbort_resType : (extAbort s).resType = s.resType := rfl
@[simp] theorem extAbort_resLen : (extAbort s).resLen = s.resLen := rfl
@[simp] theorem extAbort_resCrcRx : (extAbort s).resCrcRx = s.resCrcRx := rfl
@[simp] theorem extAbort_resCrcCalc : (extAbort s).resCrcCalc = s.resCrcCalc := rfl
@[simp] theorem extAbort_resN : (extAbort s).resN = s.resN := rfl
@[simp] theorem extAbort_resPayload : (extAbort s).resPayload = s.resPayload := rfl
@[simp] theorem extAbort_txBuf : (extAbort s).txBuf = s.txBuf := rfl
@[simp] theorem extAbort_txLen : (extAbort s).txLen = s.txLen := rfl
@[simp] theorem extAbort_txKind : (extAbort s).txKind = s.txKind := rfl
@[simp] theorem extAbort_extBuf : (extAbort s).extBuf = s.extBuf := rfl
@[simp] theorem extAbort_extAsm : (extAbort s).extAsm = false := rfl
@[simp] theorem extAbort_extDone : (extAbort s).extDone = false := rfl
@[simp] theorem extAbort_extTotal : (extAbort s).extTotal = 0x00#8 := rfl
@[simp] theorem extAbort_extNext : (extAbort s).extNext = 0 := rfl
@[simp] theorem extAbort_extLen : (extAbort s).extLen = 0 := rfl
@[simp] theorem extAbort_now : (extAbort s).now = s.now := rfl
@[simp] theorem extAbort_debLevel : (extAbort s).debLevel = s.debLevel := rfl
@[simp] theorem extAbort_debPend : (extAbort s).debPend = s.debPend := rfl
@[simp] theorem extAbort_debRun : (extAbort s).debRun = s.debRun := rfl
@[simp] theorem extAbort_debStart : (extAbort s).debStart = s.debStart := rfl
@[simp] theorem extAbort_pinPhys : (extAbort s).pinPhys = s.pinPhys := rfl
end

section -- appendSegment
variable (d : List Byte) (s : State)
@[simp] theorem appendSegment_params : (appendSegment d s).params = s.params := rfl
@[simp] theorem appendSegment_stream : (appendSegment d s).stream = s.stream := rfl
@[simp] theorem appendSegment_outputs : (appendSegment d s).outputs = s.outputs := rfl
@[simp] theorem appendSegment_crc : (appendSegment d s).crc = s.crc := rfl
@[simp] theorem appendSegment_cmdStatus : (appendSegment d s).cmdStatus = s.cmdStatus := rfl
@[simp] theorem appendSegment_rxWin : (appendSegment d s).rxWin = s.rxWin := rfl
@[simp] theorem appendSegment_rxCnt : (appendSegment d s).rxCnt = s.rxCnt := rfl
@[simp] theorem appendSegment_rxOvf : (appendSegment d s).rxOvf = s.rxOvf := rfl
@[simp] theorem appendSegment_rxLast : (appendSegment d s).rxLast = s.rxLast := rfl
@[simp] theorem appendSegment_resValid : (appendSegment d s).resValid = s.resValid := rfl
@[simp] theorem appendSegment_resCode : (appendSegment d s).resCode = s.resCode := rfl
@[simp] theorem appendSegment_resLost : (appendSegment d s).resLost = s.resLost := rfl
@[simp] theorem appendSegment_nackReq : (appendSegment d s).nackReq = s.nackReq := rfl
@[simp] theorem appendSegment_resId : (appendSegment d s).resId = s.resId := rfl
@[simp] theorem appendSegment_resType : (appendSegment d s).resType = s.resType := rfl
@[simp] theorem appendSegment_resLen : (appendSegment d s).resLen = s.resLen := rfl
@[simp] theorem appendSegment_resCrcRx : (appendSegment d s).resCrcRx = s.resCrcRx := rfl
@[simp] theorem appendSegment_resCrcCalc : (appendSegment d s).resCrcCalc = s.resCrcCalc := rfl
@[simp] theorem appendSegment_resN : (appendSegment d s).resN = s.resN := rfl
@[simp] theorem appendSegment_resPayload : (appendSegment d s).resPayload = s.resPayload := rfl
@[simp] theorem appendSegment_txBuf : (appendSegment d s).txBuf = s.txBuf := rfl
@[simp] theorem appendSegment_txLen : (appendSegment d s).txLen = s.txLen := rfl
@[simp] theorem appendSegment_txKind : (appendSegment d s).txKind = s.txKind := rfl
@[simp] theorem appendSegment_extBuf : (appendSegment d s).extBuf = s.extBuf.writeBytes s.extLen d := rfl
@[simp] theorem appendSegment_extAsm : (appendSegment d s).extAsm = s.extAsm := rfl
@[simp] theorem appendSegment_extDone : (appendSegment d s).extDone = s.extDone := rfl
@[simp] theorem appendSegment_extTotal : (appendSegment d s).extTotal = s.extTotal := rfl
@[simp] theorem appendSegment_extNext : (appendSegment d s).extNext = s.extNext := rfl
@[simp] theorem appendSegment_extLen : (appendSegment d s).extLen = s.extLen + d.length := rfl
@[simp] theorem appendSegment_now : (appendSegment d s).now = s.now := rfl
@[simp] theorem appendSegment_debLevel : (appendSegment d s).debLevel = s.debLevel := rfl
@[simp] theorem appendSegment_debPend : (appendSegment d s).debPend = s.debPend := rfl
@[simp] theorem appendSegment_debRun : (appendSegment d s).debRun = s.debRun := rfl
@[simp] theorem appendSegment_debStart : (appendSegment d s).debStart = s.debStart := rfl
@[simp] theorem appendSegment_pinPhys : (appendSegment d s).pinPhys = s.pinPhys := rfl
end

section -- latch
variable (w : List Byte) (r : ResCode × Half × Half) (s : State)
@[simp] theorem latch_params : (latch w r s).params = s.params := rfl
@[simp] theorem latch_stream : (latch w r s).stream = s.stream := rfl
@[simp] theorem latch_outputs : (latch w r s).outputs = s.outputs ++ latchOutputs r.1 := rfl
@[simp] theorem latch_crc : (latch w r s).crc = s.crc := rfl
@[simp] theorem latch_cmdStatus : (latch w r s).cmdStatus = s.cmdStatus := rfl
@[simp] theorem latch_rxWin : (latch w r s).rxWin = s.rxWin := rfl
@[simp] theorem latch_rxCnt : (latch w r s).rxCnt = s.rxCnt := rfl
@[simp] theorem latch_rxOvf : (latch w r s).rxOvf = s.rxOvf := rfl
@[simp] theorem latch_rxLast : (latch w r s).rxLast = s.rxLast := rfl
@[simp] theorem latch_resValid : (latch w r s).resValid = true := rfl
@[simp] theorem latch_resCode : (latch w r s).resCode = r.1 := rfl
@[simp] theorem latch_resLost : (latch w r s).resLost = (s.resLost || s.resValid) := rfl
@[simp] theorem latch_nackReq : (latch w r s).nackReq = (s.nackReq || decide (r.1 = .crcErr)) := rfl
@[simp] theorem latch_resId : (latch w r s).resId = w.getD 0 0 := rfl
@[simp] theorem latch_resType : (latch w r s).resType = w.getD 1 0 := rfl
@[simp] theorem latch_resLen : (latch w r s).resLen = w.getD 2 0 := rfl
@[simp] theorem latch_resCrcRx : (latch w r s).resCrcRx = r.2.1 := rfl
@[simp] theorem latch_resCrcCalc : (latch w r s).resCrcCalc = r.2.2 := rfl
@[simp] theorem latch_resN : (latch w r s).resN = w.length := rfl
@[simp] theorem latch_resPayload : (latch w r s).resPayload = (if r.1 = .frameOk then s.resPayload.writeBytes 0 ((w.drop 3).take (w.getD 2 0).toNat) else s.resPayload) := rfl
@[simp] theorem latch_txBuf : (latch w r s).txBuf = s.txBuf := rfl
@[simp] theorem latch_txLen : (latch w r s).txLen = s.txLen := rfl
@[simp] theorem latch_txKind : (latch w r s).txKind = s.txKind := rfl
@[simp] theorem latch_extBuf : (latch w r s).extBuf = s.extBuf := rfl
@[simp] theorem latch_extAsm : (latch w r s).extAsm = s.extAsm := rfl
@[simp] theorem latch_extDone : (latch w r s).extDone = s.extDone := rfl
@[simp] theorem latch_extTotal : (latch w r s).extTotal = s.extTotal := rfl
@[simp] theorem latch_extNext : (latch w r s).extNext = s.extNext := rfl
@[simp] theorem latch_extLen : (latch w r s).extLen = s.extLen := rfl
@[simp] theorem latch_now : (latch w r s).now = s.now := rfl
@[simp] theorem latch_debLevel : (latch w r s).debLevel = s.debLevel := rfl
@[simp] theorem latch_debPend : (latch w r s).debPend = s.debPend := rfl
@[simp] theorem latch_debRun : (latch w r s).debRun = s.debRun := rfl
@[simp] theorem latch_debStart : (latch w r s).debStart = s.debStart := rfl
@[simp] theorem latch_pinPhys : (latch w r s).pinPhys = s.pinPhys := rfl
end

section -- appendByte
variable (a : Byte) (s : State)
@[simp] theorem appendByte_params : (appendByte a s).params = s.params := rfl
@[simp] theorem appendByte_stream : (appendByte a s).stream = s.stream := rfl
@[simp] theorem appendByte_outputs : (appendByte a s).outputs = s.outputs := rfl
@[simp] theorem appendByte_crc : (appendByte a s).crc = s.crc := rfl
@[simp] theorem appendByte_cmdStatus : (appendByte a s).cmdStatus = s.cmdStatus := rfl
@[simp] theorem appendByte_rxWin : (appendByte a s).rxWin = s.rxWin.write s.rxCnt a := rfl
@[simp] theorem appendByte_rxCnt : (appendByte a s).rxCnt = s.rxCnt + 1 := rfl
@[simp] theorem appendByte_rxOvf : (appendByte a s).rxOvf = s.rxOvf := rfl
@[simp] theorem appendByte_rxLast : (appendByte a s).rxLast = s.now := rfl
@[simp] theorem appendByte_resValid : (appendByte a s).resValid = s.resValid := rfl
@[simp] theorem appendByte_resCode : (appendByte a s).resCode = s.resCode := rfl
@[simp] theorem appendByte_resLost : (appendByte a s).resLost = s.resLost := rfl
@[simp] theorem appendByte_nackReq : (appendByte a s).nackReq = s.nackReq := rfl
@[simp] theorem appendByte_resId : (appendByte a s).resId = s.resId := rfl
@[simp] theorem appendByte_resType : (appendByte a s).resType = s.resType := rfl
@[simp] theorem appendByte_resLen : (appendByte a s).resLen = s.resLen := rfl
@[simp] theorem appendByte_resCrcRx : (appendByte a s).resCrcRx = s.resCrcRx := rfl
@[simp] theorem appendByte_resCrcCalc : (appendByte a s).resCrcCalc = s.resCrcCalc := rfl
@[simp] theorem appendByte_resN : (appendByte a s).resN = s.resN := rfl
@[simp] theorem appendByte_resPayload : (appendByte a s).resPayload = s.resPayload := rfl
@[simp] theorem appendByte_txBuf : (appendByte a s).txBuf = s.txBuf := rfl
@[simp] theorem appendByte_txLen : (appendByte a s).txLen = s.txLen := rfl
@[simp] theorem appendByte_txKind : (appendByte a s).txKind = s.txKind := rfl
@[simp] theorem appendByte_extBuf : (appendByte a s).extBuf = s.extBuf := rfl
@[simp] theorem appendByte_extAsm : (appendByte a s).extAsm = s.extAsm := rfl
@[simp] theorem appendByte_extDone : (appendByte a s).extDone = s.extDone := rfl
@[simp] theorem appendByte_extTotal : (appendByte a s).extTotal = s.extTotal := rfl
@[simp] theorem appendByte_extNext : (appendByte a s).extNext = s.extNext := rfl
@[simp] theorem appendByte_extLen : (appendByte a s).extLen = s.extLen := rfl
@[simp] theorem appendByte_now : (appendByte a s).now = s.now := rfl
@[simp] theorem appendByte_debLevel : (appendByte a s).debLevel = s.debLevel := rfl
@[simp] theorem appendByte_debPend : (appendByte a s).debPend = s.debPend := rfl
@[simp] theorem appendByte_debRun : (appendByte a s).debRun = s.debRun := rfl
@[simp] theorem appendByte_debStart : (appendByte a s).debStart = s.debStart := rfl
@[simp] theorem appendByte_pinPhys : (appendByte a s).pinPhys = s.pinPhys := rfl
end

section -- dropByte
variable (s : State)
@[simp] theorem dropByte_params : (dropByte s).params = s.params := rfl
@[simp] theorem dropByte_stream : (dropByte s).stream = s.stream := rfl
@[simp] theorem dropByte_outputs : (dropByte s).outputs = s.outputs := rfl
@[simp] theorem dropByte_crc : (dropByte s).crc = s.crc := rfl
@[simp] theorem dropByte_cmdStatus : (dropByte s).cmdStatus = s.cmdStatus := rfl
@[simp] theorem dropByte_rxWin : (dropByte s).rxWin = s.rxWin := rfl
@[simp] theorem dropByte_rxCnt : (dropByte s).rxCnt = s.rxCnt := rfl
@[simp] theorem dropByte_rxOvf : (dropByte s).rxOvf = true := rfl
@[simp] theorem dropByte_rxLast : (dropByte s).rxLast = s.now := rfl
@[simp] theorem dropByte_resValid : (dropByte s).resValid = s.resValid := rfl
@[simp] theorem dropByte_resCode : (dropByte s).resCode = s.resCode := rfl
@[simp] theorem dropByte_resLost : (dropByte s).resLost = s.resLost := rfl
@[simp] theorem dropByte_nackReq : (dropByte s).nackReq = s.nackReq := rfl
@[simp] theorem dropByte_resId : (dropByte s).resId = s.resId := rfl
@[simp] theorem dropByte_resType : (dropByte s).resType = s.resType := rfl
@[simp] theorem dropByte_resLen : (dropByte s).resLen = s.resLen := rfl
@[simp] theorem dropByte_resCrcRx : (dropByte s).resCrcRx = s.resCrcRx := rfl
@[simp] theorem dropByte_resCrcCalc : (dropByte s).resCrcCalc = s.resCrcCalc := rfl
@[simp] theorem dropByte_resN : (dropByte s).resN = s.resN := rfl
@[simp] theorem dropByte_resPayload : (dropByte s).resPayload = s.resPayload := rfl
@[simp] theorem dropByte_txBuf : (dropByte s).txBuf = s.txBuf := rfl
@[simp] theorem dropByte_txLen : (dropByte s).txLen = s.txLen := rfl
@[simp] theorem dropByte_txKind : (dropByte s).txKind = s.txKind := rfl
@[simp] theorem dropByte_extBuf : (dropByte s).extBuf = s.extBuf := rfl
@[simp] theorem dropByte_extAsm : (dropByte s).extAsm = s.extAsm := rfl
@[simp] theorem dropByte_extDone : (dropByte s).extDone = s.extDone := rfl
@[simp] theorem dropByte_extTotal : (dropByte s).extTotal = s.extTotal := rfl
@[simp] theorem dropByte_extNext : (dropByte s).extNext = s.extNext := rfl
@[simp] theorem dropByte_extLen : (dropByte s).extLen = s.extLen := rfl
@[simp] theorem dropByte_now : (dropByte s).now = s.now := rfl
@[simp] theorem dropByte_debLevel : (dropByte s).debLevel = s.debLevel := rfl
@[simp] theorem dropByte_debPend : (dropByte s).debPend = s.debPend := rfl
@[simp] theorem dropByte_debRun : (dropByte s).debRun = s.debRun := rfl
@[simp] theorem dropByte_debStart : (dropByte s).debStart = s.debStart := rfl
@[simp] theorem dropByte_pinPhys : (dropByte s).pinPhys = s.pinPhys := rfl
end

section -- emptyWindow
variable (s : State)
@[simp] theorem emptyWindow_params : (emptyWindow s).params = s.params := rfl
@[simp] theorem emptyWindow_stream : (emptyWindow s).stream = s.stream := rfl
@[simp] theorem emptyWindow_outputs : (emptyWindow s).outputs = s.outputs := rfl
@[simp] theorem emptyWindow_crc : (emptyWindow s).crc = s.crc := rfl
@[simp] theorem emptyWindow_cmdStatus : (emptyWindow s).cmdStatus = s.cmdStatus := rfl
@[simp] theorem emptyWindow_rxWin : (emptyWindow s).rxWin = s.rxWin := rfl
@[simp] theorem emptyWindow_rxCnt : (emptyWindow s).rxCnt = 0 := rfl
@[simp] theorem emptyWindow_rxOvf : (emptyWindow s).rxOvf = false := rfl
@[simp] theorem emptyWindow_rxLast : (emptyWindow s).rxLast = s.rxLast := rfl
@[simp] theorem emptyWindow_resValid : (emptyWindow s).resValid = s.resValid := rfl
@[simp] theorem emptyWindow_resCode : (emptyWindow s).resCode = s.resCode := rfl
@[simp] theorem emptyWindow_resLost : (emptyWindow s).resLost = s.resLost := rfl
@[simp] theorem emptyWindow_nackReq : (emptyWindow s).nackReq = s.nackReq := rfl
@[simp] theorem emptyWindow_resId : (emptyWindow s).resId = s.resId := rfl
@[simp] theorem emptyWindow_resType : (emptyWindow s).resType = s.resType := rfl
@[simp] theorem emptyWindow_resLen : (emptyWindow s).resLen = s.resLen := rfl
@[simp] theorem emptyWindow_resCrcRx : (emptyWindow s).resCrcRx = s.resCrcRx := rfl
@[simp] theorem emptyWindow_resCrcCalc : (emptyWindow s).resCrcCalc = s.resCrcCalc := rfl
@[simp] theorem emptyWindow_resN : (emptyWindow s).resN = s.resN := rfl
@[simp] theorem emptyWindow_resPayload : (emptyWindow s).resPayload = s.resPayload := rfl
@[simp] theorem emptyWindow_txBuf : (emptyWindow s).txBuf = s.txBuf := rfl
@[simp] theorem emptyWindow_txLen : (emptyWindow s).txLen = s.txLen := rfl
@[simp] theorem emptyWindow_txKind : (emptyWindow s).txKind = s.txKind := rfl
@[simp] theorem emptyWindow_extBuf : (emptyWindow s).extBuf = s.extBuf := rfl
@[simp] theorem emptyWindow_extAsm : (emptyWindow s).extAsm = s.extAsm := rfl
@[simp] theorem emptyWindow_extDone : (emptyWindow s).extDone = s.extDone := rfl
@[simp] theorem emptyWindow_extTotal : (emptyWindow s).extTotal = s.extTotal := rfl
@[simp] theorem emptyWindow_extNext : (emptyWindow s).extNext = s.extNext := rfl
@[simp] theorem emptyWindow_extLen : (emptyWindow s).extLen = s.extLen := rfl
@[simp] theorem emptyWindow_now : (emptyWindow s).now = s.now := rfl
@[simp] theorem emptyWindow_debLevel : (emptyWindow s).debLevel = s.debLevel := rfl
@[simp] theorem emptyWindow_debPend : (emptyWindow s).debPend = s.debPend := rfl
@[simp] theorem emptyWindow_debRun : (emptyWindow s).debRun = s.debRun := rfl
@[simp] theorem emptyWindow_debStart : (emptyWindow s).debStart = s.debStart := rfl
@[simp] theorem emptyWindow_pinPhys : (emptyWindow s).pinPhys = s.pinPhys := rfl
end

section -- countTick
variable (s : State)
@[simp] theorem countTick_params : (countTick s).params = s.params := rfl
@[simp] theorem countTick_stream : (countTick s).stream = s.stream := rfl
@[simp] theorem countTick_outputs : (countTick s).outputs = s.outputs := rfl
@[simp] theorem countTick_crc : (countTick s).crc = s.crc := rfl
@[simp] theorem countTick_cmdStatus : (countTick s).cmdStatus = s.cmdStatus := rfl
@[simp] theorem countTick_rxWin : (countTick s).rxWin = s.rxWin := rfl
@[simp] theorem countTick_rxCnt : (countTick s).rxCnt = s.rxCnt := rfl
@[simp] theorem countTick_rxOvf : (countTick s).rxOvf = s.rxOvf := rfl
@[simp] theorem countTick_rxLast : (countTick s).rxLast = s.rxLast := rfl
@[simp] theorem countTick_resValid : (countTick s).resValid = s.resValid := rfl
@[simp] theorem countTick_resCode : (countTick s).resCode = s.resCode := rfl
@[simp] theorem countTick_resLost : (countTick s).resLost = s.resLost := rfl
@[simp] theorem countTick_nackReq : (countTick s).nackReq = s.nackReq := rfl
@[simp] theorem countTick_resId : (countTick s).resId = s.resId := rfl
@[simp] theorem countTick_resType : (countTick s).resType = s.resType := rfl
@[simp] theorem countTick_resLen : (countTick s).resLen = s.resLen := rfl
@[simp] theorem countTick_resCrcRx : (countTick s).resCrcRx = s.resCrcRx := rfl
@[simp] theorem countTick_resCrcCalc : (countTick s).resCrcCalc = s.resCrcCalc := rfl
@[simp] theorem countTick_resN : (countTick s).resN = s.resN := rfl
@[simp] theorem countTick_resPayload : (countTick s).resPayload = s.resPayload := rfl
@[simp] theorem countTick_txBuf : (countTick s).txBuf = s.txBuf := rfl
@[simp] theorem countTick_txLen : (countTick s).txLen = s.txLen := rfl
@[simp] theorem countTick_txKind : (countTick s).txKind = s.txKind := rfl
@[simp] theorem countTick_extBuf : (countTick s).extBuf = s.extBuf := rfl
@[simp] theorem countTick_extAsm : (countTick s).extAsm = s.extAsm := rfl
@[simp] theorem countTick_extDone : (countTick s).extDone = s.extDone := rfl
@[simp] theorem countTick_extTotal : (countTick s).extTotal = s.extTotal := rfl
@[simp] theorem countTick_extNext : (countTick s).extNext = s.extNext := rfl
@[simp] theorem countTick_extLen : (countTick s).extLen = s.extLen := rfl
@[simp] theorem countTick_now : (countTick s).now = s.now + 1#32 := rfl
@[simp] theorem countTick_debLevel : (countTick s).debLevel = s.debLevel := rfl
@[simp] theorem countTick_debPend : (countTick s).debPend = s.debPend := rfl
@[simp] theorem countTick_debRun : (countTick s).debRun = s.debRun := rfl
@[simp] theorem countTick_debStart : (countTick s).debStart = s.debStart := rfl
@[simp] theorem countTick_pinPhys : (countTick s).pinPhys = s.pinPhys := rfl
end

section -- timerRestart
variable (s : State)
@[simp] theorem timerRestart_params : (timerRestart s).params = s.params := rfl
@[simp] theorem timerRestart_stream : (timerRestart s).stream = s.stream := rfl
@[simp] theorem timerRestart_outputs : (timerRestart s).outputs = s.outputs := rfl
@[simp] theorem timerRestart_crc : (timerRestart s).crc = s.crc := rfl
@[simp] theorem timerRestart_cmdStatus : (timerRestart s).cmdStatus = s.cmdStatus := rfl
@[simp] theorem timerRestart_rxWin : (timerRestart s).rxWin = s.rxWin := rfl
@[simp] theorem timerRestart_rxCnt : (timerRestart s).rxCnt = s.rxCnt := rfl
@[simp] theorem timerRestart_rxOvf : (timerRestart s).rxOvf = s.rxOvf := rfl
@[simp] theorem timerRestart_rxLast : (timerRestart s).rxLast = s.rxLast := rfl
@[simp] theorem timerRestart_resValid : (timerRestart s).resValid = s.resValid := rfl
@[simp] theorem timerRestart_resCode : (timerRestart s).resCode = s.resCode := rfl
@[simp] theorem timerRestart_resLost : (timerRestart s).resLost = s.resLost := rfl
@[simp] theorem timerRestart_nackReq : (timerRestart s).nackReq = s.nackReq := rfl
@[simp] theorem timerRestart_resId : (timerRestart s).resId = s.resId := rfl
@[simp] theorem timerRestart_resType : (timerRestart s).resType = s.resType := rfl
@[simp] theorem timerRestart_resLen : (timerRestart s).resLen = s.resLen := rfl
@[simp] theorem timerRestart_resCrcRx : (timerRestart s).resCrcRx = s.resCrcRx := rfl
@[simp] theorem timerRestart_resCrcCalc : (timerRestart s).resCrcCalc = s.resCrcCalc := rfl
@[simp] theorem timerRestart_resN : (timerRestart s).resN = s.resN := rfl
@[simp] theorem timerRestart_resPayload : (timerRestart s).resPayload = s.resPayload := rfl
@[simp] theorem timerRestart_txBuf : (timerRestart s).txBuf = s.txBuf := rfl
@[simp] theorem timerRestart_txLen : (timerRestart s).txLen = s.txLen := rfl
@[simp] theorem timerRestart_txKind : (timerRestart s).txKind = s.txKind := rfl
@[simp] theorem timerRestart_extBuf : (timerRestart s).extBuf = s.extBuf := rfl
@[simp] theorem timerRestart_extAsm : (timerRestart s).extAsm = s.extAsm := rfl
@[simp] theorem timerRestart_extDone : (timerRestart s).extDone = s.extDone := rfl
@[simp] theorem timerRestart_extTotal : (timerRestart s).extTotal = s.extTotal := rfl
@[simp] theorem timerRestart_extNext : (timerRestart s).extNext = s.extNext := rfl
@[simp] theorem timerRestart_extLen : (timerRestart s).extLen = s.extLen := rfl
@[simp] theorem timerRestart_now : (timerRestart s).now = s.now := rfl
@[simp] theorem timerRestart_debLevel : (timerRestart s).debLevel = s.debLevel := rfl
@[simp] theorem timerRestart_debPend : (timerRestart s).debPend = s.debPend := rfl
@[simp] theorem timerRestart_debRun : (timerRestart s).debRun = true := rfl
@[simp] theorem timerRestart_debStart : (timerRestart s).debStart = s.now := rfl
@[simp] theorem timerRestart_pinPhys : (timerRestart s).pinPhys = s.pinPhys := rfl
end

section -- timerStop
variable (s : State)
@[simp] theorem timerStop_params : (timerStop s).params = s.params := rfl
@[simp] theorem timerStop_stream : (timerStop s).stream = s.stream := rfl
@[simp] theorem timerStop_outputs : (timerStop s).outputs = s.outputs := rfl
@[simp] theorem timerStop_crc : (timerStop s).crc = s.crc := rfl
@[simp] theorem timerStop_cmdStatus : (timerStop s).cmdStatus = s.cmdStatus := rfl
@[simp] theorem timerStop_rxWin : (timerStop s).rxWin = s.rxWin := rfl
@[simp] theorem timerStop_rxCnt : (timerStop s).rxCnt = s.rxCnt := rfl
@[simp] theorem timerStop_rxOvf : (timerStop s).rxOvf = s.rxOvf := rfl
@[simp] theorem timerStop_rxLast : (timerStop s).rxLast = s.rxLast := rfl
@[simp] theorem timerStop_resValid : (timerStop s).resValid = s.resValid := rfl
@[simp] theorem timerStop_resCode : (timerStop s).resCode = s.resCode := rfl
@[simp] theorem timerStop_resLost : (timerStop s).resLost = s.resLost := rfl
@[simp] theorem timerStop_nackReq : (timerStop s).nackReq = s.nackReq := rfl
@[simp] theorem timerStop_resId : (timerStop s).resId = s.resId := rfl
@[simp] theorem timerStop_resType : (timerStop s).resType = s.resType := rfl
@[simp] theorem timerStop_resLen : (timerStop s).resLen = s.resLen := rfl
@[simp] theorem timerStop_resCrcRx : (timerStop s).resCrcRx = s.resCrcRx := rfl
@[simp] theorem timerStop_resCrcCalc : (timerStop s).resCrcCalc = s.resCrcCalc := rfl
@[simp] theorem timerStop_resN : (timerStop s).resN = s.resN := rfl
@[simp] theorem timerStop_resPayload : (timerStop s).resPayload = s.resPayload := rfl
@[simp] theorem timerStop_txBuf : (timerStop s).txBuf = s.txBuf := rfl
@[simp] theorem timerStop_txLen : (timerStop s).txLen = s.txLen := rfl
@[simp] theorem timerStop_txKind : (timerStop s).txKind = s.txKind := rfl
@[simp] theorem timerStop_extBuf : (timerStop s).extBuf = s.extBuf := rfl
@[simp] theorem timerStop_extAsm : (timerStop s).extAsm = s.extAsm := rfl
@[simp] theorem timerStop_extDone : (timerStop s).extDone = s.extDone := rfl
@[simp] theorem timerStop_extTotal : (timerStop s).extTotal = s.extTotal := rfl
@[simp] theorem timerStop_extNext : (timerStop s).extNext = s.extNext := rfl
@[simp] theorem timerStop_extLen : (timerStop s).extLen = s.extLen := rfl
@[simp] theorem timerStop_now : (timerStop s).now = s.now := rfl
@[simp] theorem timerStop_debLevel : (timerStop s).debLevel = s.debLevel := rfl
@[simp] theorem timerStop_debPend : (timerStop s).debPend = s.debPend := rfl
@[simp] theorem timerStop_debRun : (timerStop s).debRun = false := rfl
@[simp] theorem timerStop_debStart : (timerStop s).debStart = s.debStart := rfl
@[simp] theorem timerStop_pinPhys : (timerStop s).pinPhys = s.pinPhys := rfl
end

section -- setPhys
variable (p : Nat) (b : Bool) (s : State)
@[simp] theorem setPhys_params : (setPhys p b s).params = s.params := rfl
@[simp] theorem setPhys_stream : (setPhys p b s).stream = s.stream := rfl
@[simp] theorem setPhys_outputs : (setPhys p b s).outputs = s.outputs := rfl
@[simp] theorem setPhys_crc : (setPhys p b s).crc = s.crc := rfl
@[simp] theorem setPhys_cmdStatus : (setPhys p b s).cmdStatus = s.cmdStatus := rfl
@[simp] theorem setPhys_rxWin : (setPhys p b s).rxWin = s.rxWin := rfl
@[simp] theorem setPhys_rxCnt : (setPhys p b s).rxCnt = s.rxCnt := rfl
@[simp] theorem setPhys_rxOvf : (setPhys p b s).rxOvf = s.rxOvf := rfl
@[simp] theorem setPhys_rxLast : (setPhys p b s).rxLast = s.rxLast := rfl
@[simp] theorem setPhys_resValid : (setPhys p b s).resValid = s.resValid := rfl
@[simp] theorem setPhys_resCode : (setPhys p b s).resCode = s.resCode := rfl
@[simp] theorem setPhys_resLost : (setPhys p b s).resLost = s.resLost := rfl
@[simp] theorem setPhys_nackReq : (setPhys p b s).nackReq = s.nackReq := rfl
@[simp] theorem setPhys_resId : (setPhys p b s).resId = s.resId := rfl
@[simp] theorem setPhys_resType : (setPhys p b s).resType = s.resType := rfl
@[simp] theorem setPhys_resLen : (setPhys p b s).resLen = s.resLen := rfl
@[simp] theorem setPhys_resCrcRx : (setPhys p b s).resCrcRx = s.resCrcRx := rfl
@[simp] theorem setPhys_resCrcCalc : (setPhys p b s).resCrcCalc = s.resCrcCalc := rfl
@[simp] theorem setPhys_resN : (setPhys p b s).resN = s.resN := rfl
@[simp] theorem setPhys_resPayload : (setPhys p b s).resPayload = s.resPayload := rfl
@[simp] theorem setPhys_txBuf : (setPhys p b s).txBuf = s.txBuf := rfl
@[simp] theorem setPhys_txLen : (setPhys p b s).txLen = s.txLen := rfl
@[simp] theorem setPhys_txKind : (setPhys p b s).txKind = s.txKind := rfl
@[simp] theorem setPhys_extBuf : (setPhys p b s).extBuf = s.extBuf := rfl
@[simp] theorem setPhys_extAsm : (setPhys p b s).extAsm = s.extAsm := rfl
@[simp] theorem setPhys_extDone : (setPhys p b s).extDone = s.extDone := rfl
@[simp] theorem setPhys_extTotal : (setPhys p b s).extTotal = s.extTotal := rfl
@[simp] theorem setPhys_extNext : (setPhys p b s).extNext = s.extNext := rfl
@[simp] theorem setPhys_extLen : (setPhys p b s).extLen = s.extLen := rfl
@[simp] theorem setPhys_now : (setPhys p b s).now = s.now := rfl
@[simp] theorem setPhys_debLevel : (setPhys p b s).debLevel = s.debLevel := rfl
@[simp] theorem setPhys_debPend : (setPhys p b s).debPend = s.debPend := rfl
@[simp] theorem setPhys_debRun : (setPhys p b s).debRun = s.debRun := rfl
@[simp] theorem setPhys_debStart : (setPhys p b s).debStart = s.debStart := rfl
@[simp] theorem setPhys_pinPhys : (setPhys p b s).pinPhys = setPin s.pinPhys p b := rfl
end

section -- capturePin
variable (p : Nat) (b : Bool) (s : State)
@[simp] theorem capturePin_params : (capturePin p b s).params = s.params := rfl
@[simp] theorem capturePin_stream : (capturePin p b s).stream = s.stream := rfl
@[simp] theorem capturePin_outputs : (capturePin p b s).outputs = s.outputs := rfl
@[simp] theorem capturePin_crc : (capturePin p b s).crc = s.crc := rfl
@[simp] theorem capturePin_cmdStatus : (capturePin p b s).cmdStatus = s.cmdStatus := rfl
@[simp] theorem capturePin_rxWin : (capturePin p b s).rxWin = s.rxWin := rfl
@[simp] theorem capturePin_rxCnt : (capturePin p b s).rxCnt = s.rxCnt := rfl
@[simp] theorem capturePin_rxOvf : (capturePin p b s).rxOvf = s.rxOvf := rfl
@[simp] theorem capturePin_rxLast : (capturePin p b s).rxLast = s.rxLast := rfl
@[simp] theorem capturePin_resValid : (capturePin p b s).resValid = s.resValid := rfl
@[simp] theorem capturePin_resCode : (capturePin p b s).resCode = s.resCode := rfl
@[simp] theorem capturePin_resLost : (capturePin p b s).resLost = s.resLost := rfl
@[simp] theorem capturePin_nackReq : (capturePin p b s).nackReq = s.nackReq := rfl
@[simp] theorem capturePin_resId : (capturePin p b s).resId = s.resId := rfl
@[simp] theorem capturePin_resType : (capturePin p b s).resType = s.resType := rfl
@[simp] theorem capturePin_resLen : (capturePin p b s).resLen = s.resLen := rfl
@[simp] theorem capturePin_resCrcRx : (capturePin p b s).resCrcRx = s.resCrcRx := rfl
@[simp] theorem capturePin_resCrcCalc : (capturePin p b s).resCrcCalc = s.resCrcCalc := rfl
@[simp] theorem capturePin_resN : (capturePin p b s).resN = s.resN := rfl
@[simp] theorem capturePin_resPayload : (capturePin p b s).resPayload = s.resPayload := rfl
@[simp] theorem capturePin_txBuf : (capturePin p b s).txBuf = s.txBuf := rfl
@[simp] theorem capturePin_txLen : (capturePin p b s).txLen = s.txLen := rfl
@[simp] theorem capturePin_txKind : (capturePin p b s).txKind = s.txKind := rfl
@[simp] theorem capturePin_extBuf : (capturePin p b s).extBuf = s.extBuf := rfl
@[simp] theorem capturePin_extAsm : (capturePin p b s).extAsm = s.extAsm := rfl
@[simp] theorem capturePin_extDone : (capturePin p b s).extDone = s.extDone := rfl
@[simp] theorem capturePin_extTotal : (capturePin p b s).extTotal = s.extTotal := rfl
@[simp] theorem capturePin_extNext : (capturePin p b s).extNext = s.extNext := rfl
@[simp] theorem capturePin_extLen : (capturePin p b s).extLen = s.extLen := rfl
@[simp] theorem capturePin_now : (capturePin p b s).now = s.now := rfl
@[simp] theorem capturePin_debLevel : (capturePin p b s).debLevel = setPin s.debLevel p b := rfl
@[simp] theorem capturePin_debPend : (capturePin p b s).debPend = setPin s.debPend p true := rfl
@[simp] theorem capturePin_debRun : (capturePin p b s).debRun = s.debRun := rfl
@[simp] theorem capturePin_debStart : (capturePin p b s).debStart = s.debStart := rfl
@[simp] theorem capturePin_pinPhys : (capturePin p b s).pinPhys = s.pinPhys := rfl
end

section -- clearPend
variable (p : Nat) (s : State)
@[simp] theorem clearPend_params : (clearPend p s).params = s.params := rfl
@[simp] theorem clearPend_stream : (clearPend p s).stream = s.stream := rfl
@[simp] theorem clearPend_outputs : (clearPend p s).outputs = s.outputs := rfl
@[simp] theorem clearPend_crc : (clearPend p s).crc = s.crc := rfl
@[simp] theorem clearPend_cmdStatus : (clearPend p s).cmdStatus = s.cmdStatus := rfl
@[simp] theorem clearPend_rxWin : (clearPend p s).rxWin = s.rxWin := rfl
@[simp] theorem clearPend_rxCnt : (clearPend p s).rxCnt = s.rxCnt := rfl
@[simp] theorem clearPend_rxOvf : (clearPend p s).rxOvf = s.rxOvf := rfl
@[simp] theorem clearPend_rxLast : (clearPend p s).rxLast = s.rxLast := rfl
@[simp] theorem clearPend_resValid : (clearPend p s).resValid = s.resValid := rfl
@[simp] theorem clearPend_resCode : (clearPend p s).resCode = s.resCode := rfl
@[simp] theorem clearPend_resLost : (clearPend p s).resLost = s.resLost := rfl
@[simp] theorem clearPend_nackReq : (clearPend p s).nackReq = s.nackReq := rfl
@[simp] theorem clearPend_resId : (clearPend p s).resId = s.resId := rfl
@[simp] theorem clearPend_resType : (clearPend p s).resType = s.resType := rfl
@[simp] theorem clearPend_resLen : (clearPend p s).resLen = s.resLen := rfl
@[simp] theorem clearPend_resCrcRx : (clearPend p s).resCrcRx = s.resCrcRx := rfl
@[simp] theorem clearPend_resCrcCalc : (clearPend p s).resCrcCalc = s.resCrcCalc := rfl
@[simp] theorem clearPend_resN : (clearPend p s).resN = s.resN := rfl
@[simp] theorem clearPend_resPayload : (clearPend p s).resPayload = s.resPayload := rfl
@[simp] theorem clearPend_txBuf : (clearPend p s).txBuf = s.txBuf := rfl
@[simp] theorem clearPend_txLen : (clearPend p s).txLen = s.txLen := rfl
@[simp] theorem clearPend_txKind : (clearPend p s).txKind = s.txKind := rfl
@[simp] theorem clearPend_extBuf : (clearPend p s).extBuf = s.extBuf := rfl
@[simp] theorem clearPend_extAsm : (clearPend p s).extAsm = s.extAsm := rfl
@[simp] theorem clearPend_extDone : (clearPend p s).extDone = s.extDone := rfl
@[simp] theorem clearPend_extTotal : (clearPend p s).extTotal = s.extTotal := rfl
@[simp] theorem clearPend_extNext : (clearPend p s).extNext = s.extNext := rfl
@[simp] theorem clearPend_extLen : (clearPend p s).extLen = s.extLen := rfl
@[simp] theorem clearPend_now : (clearPend p s).now = s.now := rfl
@[simp] theorem clearPend_debLevel : (clearPend p s).debLevel = s.debLevel := rfl
@[simp] theorem clearPend_debPend : (clearPend p s).debPend = setPin s.debPend p false := rfl
@[simp] theorem clearPend_debRun : (clearPend p s).debRun = s.debRun := rfl
@[simp] theorem clearPend_debStart : (clearPend p s).debStart = s.debStart := rfl
@[simp] theorem clearPend_pinPhys : (clearPend p s).pinPhys = s.pinPhys := rfl
end

end Sys2Proof.Machine
end

