-- ==== Sys2Proof/Laws/Crc.lean ====
section
/-! SUPPORT. The checksum's step as a linear, injective map (spec/41_crc.md R111, R115). -/

namespace Sys2Proof.Machine

@[simp] theorem crcFold_nil (c : Half) : crcFold c [] = c := rfl

@[simp] theorem crcFold_cons (c : Half) (b : Byte) (s : List Byte) : crcFold c (b :: s) = crcFold (crc16Update c b) s := rfl

theorem crcFold_append (c : Half) (s t : List Byte) : crcFold c (s ++ t) = crcFold (crcFold c s) t := by
  simp [crcFold]

theorem crc16_eq_crcFold (s : List Byte) : crc16 s = crcFold 0#16 s := rfl

@[simp] theorem crcBit_zero : crcBit 0#16 = 0#16 := by decide

@[simp] theorem crc16Update_zero : crc16Update 0#16 0#8 = 0#16 := by decide

/-- One bit of the CRC is linear. -/
theorem crcBit_xor (c d : Half) : crcBit (c ^^^ d) = crcBit c ^^^ crcBit d := by
  unfold crcBit
  rw [BitVec.getLsbD_xor, BitVec.ushiftRight_xor_distrib]
  cases c.getLsbD 0 <;> cases d.getLsbD 0
  · rfl
  · simp [BitVec.xor_assoc]
  · simp only [Bool.xor_false, if_true, Bool.false_eq_true, if_false]; ac_rfl
  · simp only [Bool.xor_self, if_true, Bool.false_eq_true, if_false]
    rw [show c >>> 1 ^^^ 0xA001#16 ^^^ (d >>> 1 ^^^ 0xA001#16) = c >>> 1 ^^^ d >>> 1 ^^^ (0xA001#16 ^^^ 0xA001#16) by ac_rfl]
    simp

/-- One bit of the CRC sends only 0 to 0: the polynomial's top bit shows which way it went. -/
theorem crcBit_eq_zero {c : Half} (h : crcBit c = 0#16) : c = 0#16 := by
  unfold crcBit at h
  split at h
  · have := congrArg (fun v : Half => v.getLsbD 15) h
    simp at this
  · apply BitVec.eq_of_getLsbD_eq
    intro i hi
    cases i with
    | zero => simpa using ‹¬c.getLsbD 0 = true›
    | succ i =>
      have := congrArg (fun v : Half => v.getLsbD i) h
      simpa [Nat.add_comm] using this

/-- The update of a byte is linear in the accumulator and the byte together. -/
theorem crc16Update_xor (c d : Half) (a b : Byte) :
    crc16Update (c ^^^ d) (a ^^^ b) = crc16Update c a ^^^ crc16Update d b := by
  have h : c ^^^ d ^^^ (a ^^^ b).setWidth 16 = (c ^^^ a.setWidth 16) ^^^ (d ^^^ b.setWidth 16) := by
    rw [BitVec.setWidth_xor]; ac_rfl
  unfold crc16Update
  simp only [h, crcBit_xor]

/-- The update of a byte gives 0 only where the byte cancels the accumulator. -/
theorem crc16Update_eq_zero {c : Half} {b : Byte} (h : crc16Update c b = 0#16) : c = b.setWidth 16 := by
  unfold crc16Update at h
  exact BitVec.xor_eq_zero_iff.1 <| crcBit_eq_zero <| crcBit_eq_zero <| crcBit_eq_zero <| crcBit_eq_zero <| crcBit_eq_zero <|
    crcBit_eq_zero <| crcBit_eq_zero <| crcBit_eq_zero h

/-- A difference of accumulators, once there, is never lost. -/
theorem crcFold_injective {c d : Half} (s : List Byte) (h : crcFold c s = crcFold d s) : c = d := by
  induction s generalizing c d with
  | nil => exact h
  | cons b s ih =>
    have h1 := ih h
    have h2 : crc16Update (c ^^^ d) (b ^^^ b) = 0#16 := by rw [crc16Update_xor, h1]; simp
    have h3 := crc16Update_eq_zero h2
    simp only [BitVec.xor_self] at h3
    exact BitVec.xor_eq_zero_iff.1 (by simpa using h3)

end Sys2Proof.Machine
end

