-- ==== Sys2Proof/Laws/Debounce.lean ====
section
/-! SUPPORT. The pin bitmaps, and what an expiry of the confirmation timer does (spec/45_debounce.md), said once. -/

namespace Sys2Proof.Machine

/-- The pin `p` mask's bits. -/
theorem getLsbD_pinMask (p q : Nat) : (1#32 <<< p).getLsbD q = (decide (q = p) && decide (p < 32)) := by
  simp only [BitVec.getLsbD_shiftLeft, BitVec.getLsbD_one]
  rw [Bool.eq_iff_iff]
  simp only [Bool.and_eq_true, decide_eq_true_eq, Bool.not_eq_true', decide_eq_false_iff_not]
  omega

/-- Setting one pin's bit. -/
theorem pinBit_setPin (v : Word) (p q : Nat) (b : Bool) :
    pinBit (setPin v p b) q = if q = p ∧ p < 32 then b else pinBit v q := by
  unfold pinBit setPin
  by_cases hq : q = p ∧ p < 32
  · obtain ⟨rfl, hp⟩ := hq
    cases b <;> simp [-BitVec.shiftLeft_eq', hp]
  · rw [if_neg hq]
    have hm : (1#32 <<< p).getLsbD q = false := by
      rw [getLsbD_pinMask]; simpa using hq
    cases b
    · simp only [Bool.false_eq_true, if_false, BitVec.getLsbD_and, BitVec.getLsbD_not, hm]
      by_cases h32 : q < 32
      · simp [h32]
      · simp [h32, BitVec.getLsbD_of_ge v q (by omega)]
    · simp only [if_true, BitVec.getLsbD_or, hm, Bool.or_false]

/-- A pin at or above 32 has no bit. -/
theorem pinBit_of_ge (v : Word) {p : Nat} (h : 32 ≤ p) : pinBit v p = false := BitVec.getLsbD_of_ge v p h

/-- Two bitmaps with the same pins are equal. -/
theorem eq_of_pinBit {v w : Word} (h : ∀ p, p < 32 → pinBit v p = pinBit w p) : v = w :=
  BitVec.eq_of_getLsbD_eq h

theorem pinsBelow_zero (n : Nat) : pinsBelow 0#32 n := fun p _ _ => by simp [pinBit]

/-- A bitmap whose value has `n` bits has no pin at or above `n`. -/
theorem pinsBelow_of_toNat_lt {v : Word} {n : Nat} (h : v.toNat < 2 ^ n) : pinsBelow v n := by
  intro p _ hp
  exact Nat.testBit_lt_two_pow (Nat.lt_of_lt_of_le h (Nat.pow_le_pow_right (by decide) hp))

/-- Setting the bit of a pin that exists keeps a bitmap to its pins. -/
theorem pinsBelow_setPin {v : Word} {n p : Nat} (h : pinsBelow v n) (hp : p < n) (b : Bool) : pinsBelow (setPin v p b) n := by
  intro q hq hn
  rw [pinBit_setPin, if_neg (by omega)]; exact h q hq hn

/-- The events that the pins of a list give at expiry, in the list's order (R203, R204). -/
def buttonEvents (s : State) (ps : List Nat) : List Output :=
  (ps.filter fun p => pinBit s.debPend p && (pinBit s.pinPhys p == pinBit s.debLevel p)).map
    fun p => .button p (!pinBit s.debLevel p)

/-- The expiry loop over distinct pins: their events are appended, their pending bits cleared, nothing else changes. -/
theorem foldl_confirmPin (ps : List Nat) (hd : ps.Nodup) (s : State) :
    ∃ pend, ps.foldl confirmPin s = { s with debPend := pend, outputs := s.outputs ++ buttonEvents s ps } ∧
      ∀ q, pinBit pend q = if q ∈ ps then false else pinBit s.debPend q := by
  induction ps generalizing s with
  | nil => exact ⟨s.debPend, by simp [buttonEvents], by simp⟩
  | cons p ps ih =>
    rw [List.nodup_cons] at hd
    rw [List.foldl_cons]
    cases hp : pinBit s.debPend p with
    | false =>
      obtain ⟨pend, h1, h2⟩ := ih hd.2 s
      have hc : confirmPin s p = s := by simp [confirmPin, hp]
      refine ⟨pend, by rw [hc, h1]; simp [buttonEvents, hp], fun q => ?_⟩
      rw [h2]
      by_cases hq : q = p
      · subst hq; simp [hp]
      · simp [hq]
    | true =>
      have hlt : p < 32 := by
        rcases Nat.lt_or_ge p 32 with h | h
        · exact h
        · rw [pinBit_of_ge _ h] at hp; cases hp
      have hc : confirmPin s p =
          { s with debPend := setPin s.debPend p false, outputs := s.outputs ++ (pinEvent s p).toList } := by
        simp only [confirmPin, hp, if_true]; rfl
      obtain ⟨pend, h1, h2⟩ := ih hd.2 (confirmPin s p)
      have hev : buttonEvents (confirmPin s p) ps = buttonEvents s ps := by
        unfold buttonEvents
        rw [hc]
        congr 1
        apply List.filter_congr
        intro q hq
        have hne : q ≠ p := fun e => hd.1 (e ▸ hq)
        simp [pinBit_setPin, hne]
      refine ⟨pend, ?_, fun q => ?_⟩
      · rw [h1, hev, hc]
        simp only [State.mk.injEq, true_and, and_true, List.append_assoc, List.append_cancel_left_eq]
        unfold buttonEvents pinEvent
        by_cases he : pinBit s.pinPhys p = pinBit s.debLevel p <;> simp [hp, he]
      · rw [h2, hc]
        by_cases hq : q = p
        · subst hq; simp [pinBit_setPin, hlt]
        · simp [hq, pinBit_setPin]

/-- `DEB_FIRE` (R203): the events of the pins below `P_N_PINS` in ascending order, their pending bits cleared, the timer
stopped, nothing else changed. -/
theorem debFire_eq (s : State) :
    ∃ pend, debFire s =
        { s with debPend := pend, debRun := false, outputs := s.outputs ++ buttonEvents s (List.range s.params.nPins) } ∧
      ∀ q, pinBit pend q = if q < s.params.nPins then false else pinBit s.debPend q := by
  obtain ⟨pend, h1, h2⟩ := foldl_confirmPin (List.range s.params.nPins) List.nodup_range s
  exact ⟨pend, by unfold debFire; rw [h1]; rfl, by simpa using h2⟩

end Sys2Proof.Machine
end

