-- ==== Sys2Proof/Laws/Decode.lean ====
section
/-! SUPPORT. The parts of the decoder and the encoder against each other (spec/30_encoding.md R81 to R86). -/

namespace Sys2Proof

/-- The two bytes of a 16-bit operand give it back. -/
@[simp] theorem u16le_bytes (v : Half) : u16le (v.extractLsb' 0 8) (v.extractLsb' 8 8) = v := by
  apply BitVec.eq_of_getLsbD_eq
  intro i hi
  simp only [u16le, BitVec.getLsbD_or, BitVec.getLsbD_setWidth, BitVec.getLsbD_extractLsb', BitVec.getLsbD_shiftLeft]
  by_cases h : i < 8
  · simp [h, hi]
  · simp [h, hi, show i - 8 < 8 by omega, show i - 8 < 16 by omega, show 8 + (i - 8) = i by omega]

/-- A 16-bit operand's bytes are those it was assembled from. -/
theorem encodeU16_u16le (lo hi : Byte) : encodeU16 (u16le lo hi) = [lo, hi] := by
  have h0 : (u16le lo hi).extractLsb' 0 8 = lo := by
    apply BitVec.eq_of_getLsbD_eq; intro i hi'
    simp [u16le, hi', show i < 16 by omega]
  have h8 : (u16le lo hi).extractLsb' 8 8 = hi := by
    apply BitVec.eq_of_getLsbD_eq; intro i hi'
    simp [u16le, hi', show 8 + i < 16 by omega]
  simp [encodeU16, h0, h8]

/-- The length of a block that fits is its count. -/
theorem count_of_fits {d : List Byte} (h : blockFits d = true) : (BitVec.ofNat 16 d.length).toNat = d.length := by
  simp only [blockFits, decide_eq_true_eq] at h
  simp [Nat.mod_eq_of_lt h]

/-- A block operand decodes to itself. -/
theorem decodeBlock_append (k : List Byte → Instr) {d rest : List Byte} (h : blockFits d = true) :
    decodeBlock k (BitVec.ofNat 16 d.length) (d ++ rest) = .instr (k d) rest := by
  unfold decodeBlock
  rw [count_of_fits h, if_pos (by simp)]
  simp

/-- What a decoded block says of the bytes it came from. -/
theorem decodeBlock_instr {k : List Byte → Instr} {n : Half} {r rest : List Byte} {i : Instr}
    (h : decodeBlock k n r = .instr i rest) :
    ∃ d, i = k d ∧ r = d ++ rest ∧ blockFits d = true ∧ BitVec.ofNat 16 d.length = n := by
  unfold decodeBlock at h
  split at h
  · rename_i hn
    cases h
    have hl : (r.take n.toNat).length = n.toNat := by simp [hn]
    refine ⟨r.take n.toNat, rfl, by simp, ?_, ?_⟩
    · have := n.isLt
      simp only [blockFits, hl]; simpa using this
    · rw [hl]; simp
  · cases h

@[simp] theorem decodeFB_encodeBlock (k : List Byte → Instr) {d : List Byte} (rest : List Byte) (h : blockFits d = true) :
    decodeFB k (encodeBlock d ++ rest) = .instr (k d) rest := by
  simp [encodeBlock, encodeU16, decodeFB, decodeBlock_append k h]

@[simp] theorem decodeFS_encodeBlock (k : Byte → Byte → List Byte → Instr) (a b : Byte) {d : List Byte} (rest : List Byte)
    (h : blockFits d = true) : decodeFS k (a :: b :: (encodeBlock d ++ rest)) = .instr (k a b d) rest := by
  simp [encodeBlock, encodeU16, decodeFS, decodeBlock_append (k a b) h]

theorem decodeFB_instr {k : List Byte → Instr} {r rest : List Byte} {i : Instr} (h : decodeFB k r = .instr i rest) :
    ∃ d, i = k d ∧ r = encodeBlock d ++ rest ∧ blockFits d = true := by
  unfold decodeFB at h
  split at h
  · obtain ⟨d, rfl, rfl, hf, hn⟩ := decodeBlock_instr h
    exact ⟨d, rfl, by simp [encodeBlock, hn, encodeU16_u16le], hf⟩
  · cases h

theorem decodeFS_instr {k : Byte → Byte → List Byte → Instr} {r rest : List Byte} {i : Instr}
    (h : decodeFS k r = .instr i rest) :
    ∃ a b d, i = k a b d ∧ r = a :: b :: (encodeBlock d ++ rest) ∧ blockFits d = true := by
  unfold decodeFS at h
  split at h
  · rename_i a b _ _ _
    obtain ⟨d, rfl, rfl, hf, hn⟩ := decodeBlock_instr h
    exact ⟨a, b, d, rfl, by simp [encodeBlock, hn, encodeU16_u16le], hf⟩
  · cases h

end Sys2Proof
end

