-- ==== Sys2Proof/Laws/Step.lean ====
section
/-! SUPPORT. What a step can do, said once, and how results compose. -/

namespace Sys2Proof.Machine

@[simp] theorem andThen_next (s : State) (k : State → Result) : andThen (.next s) k = k s := rfl
@[simp] theorem andThen_fault (f : Fault) (k : State → Result) : andThen (.fault f) k = .fault f := rfl
@[simp] theorem andThen_refused (r : Refusal) (k : State → Result) : andThen (.refused r) k = .refused r := rfl

theorem andThen_eq_next {r : Result} {k : State → Result} {t : State} (h : andThen r k = .next t) :
    ∃ s, r = .next s ∧ k s = .next t := by
  cases r with
  | next s => exact ⟨s, rfl, h⟩
  | fault f => cases h
  | refused f => cases h

theorem complete_eq (s : State) : complete s = .next (setStatus .ok s) := rfl

theorem fail_eq (c : CmdStatus) (s : State) : fail c s = .next (setStatus c s) := rfl

/-- A completing command's next state. -/
@[simp] theorem complete_next {s t : State} : complete s = .next t ↔ t = setStatus .ok s := by
  rw [complete_eq]; constructor
  · rintro ⟨⟩; rfl
  · rintro rfl; rfl

/-- A failing command's next state. -/
@[simp] theorem fail_next {c : CmdStatus} {s t : State} : fail c s = .next t ↔ t = setStatus c s := by
  rw [fail_eq]; constructor
  · rintro ⟨⟩; rfl
  · rintro rfl; rfl

@[simp] theorem execSeq_nil (s : State) : execSeq [] s = .next s := rfl

@[simp] theorem execSeq_cons (i : Instr) (is : List Instr) (s : State) :
    execSeq (i :: is) s = andThen (exec i s) (execSeq is) := rfl

/-- A sequence in two parts. -/
theorem execSeq_append (is js : List Instr) (s : State) :
    execSeq (is ++ js) s = andThen (execSeq is s) (execSeq js) := by
  induction is generalizing s with
  | nil => rfl
  | cons i is ih =>
    simp only [List.cons_append, execSeq_cons]
    cases exec i s <;> simp [ih]

/-- What a step that answers a next state did: nothing was presented, or it ran the decoded record, or it failed a reserved
command. -/
theorem step_next {s t : State} (h : step s = .next t) :
    (s.stream = [] ∧ t = s) ∨
    (∃ i rest, decode s.stream = .instr i rest ∧ exec i (advance rest s) = .next t) ∨
    (∃ op rest, decode s.stream = .reservedCommand op rest ∧ t = setStatus .badOpcode (advance rest s)) := by
  unfold step fetch at h
  split at h
  · rename_i hf
    split at hf
    · cases h; exact .inl ⟨‹_›, rfl⟩
    · split at hf <;> cases hf
  · rename_i hf
    split at hf
    · cases hf
    · rename_i hs
      split at hf
      · cases hf; exact .inr (.inl ⟨_, _, by rw [hs]; assumption, h⟩)
      · cases hf
      · cases hf
  · rename_i hf
    split at hf
    · cases hf
    · rename_i hs
      split at hf
      · cases hf
      · cases hf; exact .inr (.inr ⟨_, _, by rw [hs]; assumption, by simpa [execReservedCommand] using h⟩)
      · cases hf
  · cases h

/-- A step faults only where the decoded record's meaning does. -/
theorem step_fault {s : State} {f : Fault} (h : step s = .fault f) :
    ∃ i rest, decode s.stream = .instr i rest ∧ exec i (advance rest s) = .fault f := by
  unfold step fetch at h
  split at h
  · cases h
  · rename_i hf
    split at hf
    · cases hf
    · rename_i hs
      split at hf
      · cases hf; exact ⟨_, _, by rw [hs]; assumption, h⟩
      · cases hf
      · cases hf
  · cases h
  · cases h

/-- A step refuses where the decoded record's meaning does, or where the decoder rejects the record. -/
theorem step_refused {s : State} {r : Refusal} (h : step s = .refused r) :
    (∃ i rest, decode s.stream = .instr i rest ∧ exec i (advance rest s) = .refused r) ∨
    (s.stream ≠ [] ∧ ∃ j, decode s.stream = .reject j ∧ r = refusalOf j) := by
  unfold step fetch at h
  split at h
  · cases h
  · rename_i hf
    split at hf
    · cases hf
    · rename_i hs
      split at hf
      · cases hf; exact .inl ⟨_, _, by rw [hs]; assumption, h⟩
      · cases hf
      · cases hf
  · cases h
  · rename_i hf
    split at hf
    · cases hf
    · rename_i hs
      split at hf
      · cases hf
      · cases hf
      · cases hf; cases h; exact .inr ⟨by simp [hs], _, by rw [hs]; assumption, rfl⟩

end Sys2Proof.Machine
end

