-- ==== Sys2Proof/Laws/Meanings.lean ====
section
/-! SUPPORT. What each meaning that branches can answer, said once: if it answers a next state, one of these cases holds. -/

namespace Sys2Proof.Machine

theorem buildShort_length (id ty : Byte) (p : List Byte) : (buildShort id ty p).length = p.length + 5 := by
  simp [buildShort]

theorem buildExt_length (id ty : Byte) (p : List Byte) : (buildExt id ty p).length = p.length + 4 := by
  simp [buildExt]

/-- Wherever `P_MAX_SHORT < P_MAX_EXT`, the defaults among these settings, every short frame has room in `tx_buf`, so that `ENC.SHORT`
is R133's pseudocode and no more. -/
theorem shortFrame_has_room {p : Params} (h : p.maxShort < p.maxExt) {n : Nat} (hn : n ≤ p.maxShort) : n + 5 ≤ p.txCap := by
  unfold Params.txCap; omega

/-- The settings of R7 at which R133 (a frame of `n + 5` bytes for every `n ≤ P_MAX_SHORT`) and the size of `tx_buf` (R61, R62) can both
hold are exactly those with `P_MAX_SHORT < P_MAX_EXT`, whatever a model does at the others (log entry 7). -/
theorem shortFrame_has_room_iff (p : Params) : (∀ n, n ≤ p.maxShort → n + 5 ≤ p.txCap) ↔ p.maxShort < p.maxExt := by
  constructor
  · intro h
    have := h p.maxShort (Nat.le_refl _)
    unfold Params.txCap at this; omega
  · exact fun h _ => shortFrame_has_room h

/-- `ENC.SHORT` of a payload that is no longer than `P_MAX_SHORT` and whose frame has room. -/
theorem execEncShort_of_fits {id ty : Byte} {d : List Byte} {s : State} (h : d.length ≤ s.params.maxShort)
    (hr : d.length + 5 ≤ s.params.txCap) :
    execEncShort id ty d s = .next (setStatus .ok (transmit .short (buildShort id ty d) s)) := by
  unfold execEncShort; rw [if_neg (by omega), if_neg (by omega)]; rfl

/-- `ENC.SHORT`: too long, or built. -/
theorem execEncShort_next {id ty : Byte} {d : List Byte} {s t : State} (h : execEncShort id ty d s = .next t) :
    ((s.params.maxShort < d.length ∨ s.params.txCap < d.length + 5) ∧ t = setStatus .encLen s) ∨
    (d.length ≤ s.params.maxShort ∧ d.length + 5 ≤ s.params.txCap ∧
      t = setStatus .ok (transmit .short (buildShort id ty d) s)) := by
  unfold execEncShort at h
  split at h
  · exact .inl ⟨.inl (by omega), by simpa using h⟩
  · split at h
    · exact .inl ⟨.inr (by omega), by simpa using h⟩
    · exact .inr ⟨by omega, by omega, by simpa using h⟩

/-- `ENC.EXT`: too long, or built. -/
theorem execEncExt_next {id ty : Byte} {d : List Byte} {s t : State} (h : execEncExt id ty d s = .next t) :
    (s.params.maxExt < d.length ∧ t = setStatus .encLen s) ∨
    (d.length ≤ s.params.maxExt ∧ t = setStatus .ok (transmit .ext (buildExt id ty d) s)) := by
  unfold execEncExt at h
  split at h
  · exact .inl ⟨by omega, by simpa using h⟩
  · exact .inr ⟨by omega, by simpa using h⟩

/-- `ENC.EXTA`: not ready, or built from what the assembler holds. -/
theorem execEncExta_next {id ty : Byte} {s t : State} (h : execEncExta id ty s = .next t) :
    (s.extDone = false ∧ t = setStatus .extNotReady s) ∨
    (s.extDone = true ∧ ∃ p, holds s.extBuf s.extLen p ∧ t = setStatus .ok (transmit .ext (buildExt id ty p) s)) := by
  unfold execEncExta at h
  split at h
  · exact .inl ⟨‹_›, by simpa using h⟩
  · split at h
    · cases h
    · rename_i hd _ p hp
      obtain ⟨hl, hv⟩ := Memory.readBytes_some hp
      exact .inr ⟨by simpa using hd, p, ⟨hl, by simpa using hv⟩, by simpa using h⟩

/-- `DEC.SHORT` always latches. -/
theorem execDecShort_next {d : List Byte} {s t : State} (h : execDecShort d s = .next t) :
    t = setStatus .ok (latch d (decodeShort s.params d) s) := by
  simpa [execDecShort] using h

/-- `RD.REG`: reserved, or read. -/
theorem execRdReg_next {r : Byte} {s t : State} (h : execRdReg r s = .next t) :
    (register s r = none ∧ t = setStatus .badReg s) ∨
    (∃ v, register s r = some v ∧ t = setStatus .ok (emit (.read v) s)) := by
  unfold execRdReg at h
  split at h
  · exact .inl ⟨‹_›, by simpa using h⟩
  · exact .inr ⟨_, ‹_›, by simpa using h⟩

/-- `RD.BUF`: no such buffer, past its length, or read. -/
theorem execRdBuf_next {sel : Byte} {idx : Half} {s t : State} (h : execRdBuf sel idx s = .next t) :
    (bufferOf s sel = none ∧ t = setStatus .badReg s) ∨
    (∃ m n, bufferOf s sel = some (m, n) ∧ n ≤ idx.toNat ∧ t = setStatus .badIndex s) ∨
    (∃ m n b, bufferOf s sel = some (m, n) ∧ idx.toNat < n ∧ m.read idx.toNat = some b ∧
      t = setStatus .ok (emit (.read (b.setWidth 32)) s)) := by
  unfold execRdBuf at h
  split at h
  · exact .inl ⟨‹_›, by simpa using h⟩
  · rename_i m n hb
    split at h
    · split at h
      · cases h
      · exact .inr (.inr ⟨m, n, _, hb, ‹_›, ‹_›, by simpa using h⟩)
    · exact .inr (.inl ⟨m, n, hb, by omega, by simpa using h⟩)

/-- The pair of a segment is possible (R181). -/
theorem badHeader_eq_false {total current : Byte} :
    badHeader total current = false ↔ 1 ≤ current.toNat ∧ current.toNat ≤ total.toNat := by
  simp only [badHeader, decide_eq_false_iff_not]; omega

/-- A segment is in sequence: the first, or the one the assembly waits for (R181). -/
theorem badSequence_eq_false {total current : Byte} {s : State} :
    badSequence total current s = false ↔
      current.toNat = 1 ∨ (s.extAsm = true ∧ current.toNat = s.extNext ∧ total = s.extTotal) := by
  simp only [badSequence, decide_eq_false_iff_not]
  cases s.extAsm <;> by_cases h1 : current.toNat = 1 <;> by_cases h2 : current.toNat = s.extNext <;>
    by_cases h3 : total = s.extTotal <;> simp [h1, h2, h3]

/-- Starting or not, discarding leaves the same. -/
theorem extAbort_startAssembly (total current : Byte) (s : State) :
    extAbort (startAssembly total current s) = extAbort s := by
  unfold startAssembly; split <;> rfl

/-- `EXT.SEG`: the three failures, each with the assembly discarded, or the segment accepted. -/
theorem execExtSeg_next {total current : Byte} {d : List Byte} {s t : State} (h : execExtSeg total current d s = .next t) :
    (badHeader total current = true ∧ t = setStatus .extHdr (extAbort s)) ∨
    (badHeader total current = false ∧ badSequence total current s = true ∧ t = setStatus .extSeq (extAbort s)) ∨
    (badHeader total current = false ∧ badSequence total current s = false ∧
      s.params.maxExt < (startAssembly total current s).extLen + d.length ∧
      t = setStatus .extOvf (extAbort (startAssembly total current s))) ∨
    (badHeader total current = false ∧ badSequence total current s = false ∧
      (startAssembly total current s).extLen + d.length ≤ s.params.maxExt ∧
      t = setStatus .ok (advanceAssembly total current (appendSegment d (startAssembly total current s)))) := by
  unfold execExtSeg at h
  split at h
  · exact .inl ⟨‹_›, by simpa using h⟩
  · rename_i h1
    rw [Bool.not_eq_true] at h1
    split at h
    · exact .inr (.inl ⟨h1, ‹_›, by simpa using h⟩)
    · rename_i h2
      rw [Bool.not_eq_true] at h2
      dsimp only at h
      split at h
      · exact .inr (.inr (.inl ⟨h1, h2, by omega, by simpa using h⟩))
      · exact .inr (.inr (.inr ⟨h1, h2, by omega, by simpa using h⟩))

/-- `EV.RXB`: appended, or dropped. -/
theorem execEvRxb_next {a : Byte} {s t : State} (h : execEvRxb a s = .next t) :
    (s.rxCnt < s.params.rxCap ∧ t = appendByte a s) ∨
    (s.params.rxCap ≤ s.rxCnt ∧ t = dropByte s) := by
  unfold execEvRxb at h
  split at h
  · cases h; exact .inl ⟨‹_›, rfl⟩
  · cases h; exact .inr ⟨by omega, rfl⟩

/-- `EV.EDGE`: on a pin that exists, a capture or a bounce. -/
theorem execEvEdge_next {pin : Byte} {level : Bool} {s t : State} (h : execEvEdge pin level s = .next t) :
    s.params.debPresent = true ∧ pin.toNat < s.params.nPins ∧
    ((pinBit s.debPend pin.toNat = true ∧ t = bounceEdge pin.toNat (setPhys pin.toNat level s)) ∨
     (pinBit s.debPend pin.toNat = false ∧ t = captureEdge pin.toNat level (setPhys pin.toNat level s))) := by
  unfold execEvEdge at h
  split at h
  · cases h
  · rename_i h1
    split at h
    · cases h
    · rename_i h2
      refine ⟨by simpa using h1, by omega, ?_⟩
      split at h
      · cases h; exact .inl ⟨‹_›, rfl⟩
      · cases h; exact .inr ⟨Bool.eq_false_of_not_eq_true ‹_›, rfl⟩

/-- The window close latches the classification of what the window holds. -/
theorem closeWindow_next {s t : State} (h : closeWindow s = .next t) :
    ∃ w, holds s.rxWin s.rxCnt w ∧
      t = emptyWindow (latch w (classify s.params w s.rxOvf) s) := by
  unfold closeWindow at h
  split at h
  · cases h
  · rename_i w hw
    obtain ⟨hl, hv⟩ := Memory.readBytes_some hw
    cases h; exact ⟨w, ⟨hl, by simpa using hv⟩, rfl⟩

/-- The window close of a window that holds `w`. -/
theorem closeWindow_of_holds {s : State} {w : List Byte} (h : holds s.rxWin s.rxCnt w) :
    closeWindow s = .next (emptyWindow (latch w (classify s.params w s.rxOvf) s)) := by
  unfold closeWindow; rw [Memory.readBytes_holds h]

/-- `EV.TICK`: the receive half closed the window or not, then the debounce half fired or not. -/
theorem execEvTick_next {s t : State} (h : execEvTick s = .next t) :
    ∃ b, ((gapDue (countTick s) = false ∧ b = countTick s) ∨
        (gapDue (countTick s) = true ∧ ∃ w, holds s.rxWin s.rxCnt w ∧
          b = emptyWindow (latch w (classify s.params w s.rxOvf) (countTick s)))) ∧
      ((debDue b = false ∧ t = b) ∨ (debDue b = true ∧ t = debFire b)) := by
  obtain ⟨b, hb, ht⟩ := andThen_eq_next h
  refine ⟨b, ?_, ?_⟩
  · unfold tickReceive at hb
    split at hb
    · obtain ⟨w, hw, rfl⟩ := closeWindow_next hb
      exact .inr ⟨‹_›, w, hw, rfl⟩
    · cases hb; exact .inl ⟨Bool.eq_false_of_not_eq_true ‹_›, rfl⟩
  · unfold tickDebounce at ht
    split at ht
    · cases ht; exact .inr ⟨‹_›, rfl⟩
    · cases ht; exact .inl ⟨Bool.eq_false_of_not_eq_true ‹_›, rfl⟩

/-- A frame that decodes has room for its parts, and its length field is right (R155). -/
theorem decodeShort_frameOk {p : Params} {w : List Byte} (h : (decodeShort p w).1 = .frameOk) :
    5 ≤ w.length ∧ (w.getD 2 0).toNat ≤ p.maxShort ∧ w.length = (w.getD 2 0).toNat + 5 := by
  unfold decodeShort at h
  split at h
  · cases h
  · dsimp only at h
    split at h
    · cases h
    · split at h
      · cases h
      · omega

/-- `DECODE_SHORT` has three outcomes (R155). -/
theorem decodeShort_code (p : Params) (w : List Byte) :
    (decodeShort p w).1 = .frameOk ∨ (decodeShort p w).1 = .crcErr ∨ (decodeShort p w).1 = .lenErr := by
  unfold decodeShort
  split
  · simp
  · dsimp only; split
    · simp
    · split <;> simp

/-- `CLASSIFY` answers a valid frame only through the decoder (R154). -/
theorem classify_frameOk {p : Params} {w : List Byte} {ovf : Bool} (h : (classify p w ovf).1 = .frameOk) :
    classify p w ovf = decodeShort p w := by
  unfold classify at h ⊢
  split
  · rename_i h1
    rw [if_pos h1] at h
    split
    · rename_i h2; rw [if_pos h2] at h; cases h
    · rfl
  · rename_i h1
    rw [if_neg h1] at h
    split at h
    · cases h
    · split at h <;> cases h

/-- `CLASSIFY` never answers `NONE` (R251). -/
theorem classify_ne_none (p : Params) (w : List Byte) (ovf : Bool) : (classify p w ovf).1 ≠ .none := by
  unfold classify
  split
  · split
    · simp
    · rcases decodeShort_code p w with h | h | h <;> simp [h]
  · split
    · simp
    · split <;> simp

end Sys2Proof.Machine
end

