-- ==== Sys2Proof/Laws/Frames.lean ====
section
/-! SUPPORT. What each meaning may write: if it answers a next state, every other field is as before. -/

namespace Sys2Proof.Machine

theorem execCrcClr_frame {s t : State} (h : execCrcClr s = .next t) :
    t = { s with crc := t.crc, cmdStatus := t.cmdStatus } := by
  simp only [execCrcClr, complete_next] at h; subst h; rfl

theorem execCrcByte_frame {a : Byte} {s t : State} (h : execCrcByte a s = .next t) :
    t = { s with crc := t.crc, cmdStatus := t.cmdStatus } := by
  simp only [execCrcByte, complete_next] at h; subst h; rfl

theorem execCrcBlk_frame {d : List Byte} {s t : State} (h : execCrcBlk d s = .next t) :
    t = { s with crc := t.crc, cmdStatus := t.cmdStatus } := by
  simp only [execCrcBlk, complete_next] at h; subst h; rfl

theorem execEncShort_frame {id ty : Byte} {d : List Byte} {s t : State} (h : execEncShort id ty d s = .next t) :
    t = { s with txBuf := t.txBuf, txLen := t.txLen, txKind := t.txKind, cmdStatus := t.cmdStatus, outputs := t.outputs } := by
  rcases execEncShort_next h with ⟨_, rfl⟩ | ⟨_, _, rfl⟩ <;> rfl

theorem execEncExt_frame {id ty : Byte} {d : List Byte} {s t : State} (h : execEncExt id ty d s = .next t) :
    t = { s with txBuf := t.txBuf, txLen := t.txLen, txKind := t.txKind, cmdStatus := t.cmdStatus, outputs := t.outputs } := by
  rcases execEncExt_next h with ⟨_, rfl⟩ | ⟨_, rfl⟩ <;> rfl

theorem execEncExta_frame {id ty : Byte} {s t : State} (h : execEncExta id ty s = .next t) :
    t = { s with txBuf := t.txBuf, txLen := t.txLen, txKind := t.txKind, cmdStatus := t.cmdStatus, outputs := t.outputs } := by
  rcases execEncExta_next h with ⟨_, rfl⟩ | ⟨_, _, _, rfl⟩ <;> rfl

theorem execEncAck_frame {s t : State} (h : execEncAck s = .next t) :
    t = { s with txBuf := t.txBuf, txLen := t.txLen, txKind := t.txKind, cmdStatus := t.cmdStatus, outputs := t.outputs } := by
  simp only [execEncAck, complete_next] at h; subst h; rfl

theorem execEncNack_frame {s t : State} (h : execEncNack s = .next t) :
    t = { s with txBuf := t.txBuf, txLen := t.txLen, txKind := t.txKind, nackReq := false, cmdStatus := t.cmdStatus,
                 outputs := t.outputs } := by
  simp only [execEncNack, complete_next] at h; subst h; rfl

theorem execDecShort_frame {d : List Byte} {s t : State} (h : execDecShort d s = .next t) :
    t = { s with resValid := t.resValid, resCode := t.resCode, resLost := t.resLost, nackReq := t.nackReq, resId := t.resId,
                 resType := t.resType, resLen := t.resLen, resCrcRx := t.resCrcRx, resCrcCalc := t.resCrcCalc,
                 resN := t.resN, resPayload := t.resPayload, cmdStatus := t.cmdStatus, outputs := t.outputs } := by
  rcases execDecShort_next h with rfl; rfl

theorem execRxClr_frame {s t : State} (h : execRxClr s = .next t) :
    t = { s with resValid := false, resLost := false, cmdStatus := t.cmdStatus } := by
  simp only [execRxClr, complete_next] at h; subst h; rfl

theorem execExtSeg_frame {total current : Byte} {d : List Byte} {s t : State} (h : execExtSeg total current d s = .next t) :
    t = { s with extBuf := t.extBuf, extAsm := t.extAsm, extDone := t.extDone, extTotal := t.extTotal, extNext := t.extNext,
                 extLen := t.extLen, cmdStatus := t.cmdStatus, outputs := t.outputs } := by
  rcases execExtSeg_next h with ⟨_, rfl⟩ | ⟨_, _, rfl⟩ | ⟨_, _, _, rfl⟩ | ⟨_, _, _, rfl⟩
  · rfl
  · rfl
  · simp only [startAssembly]; split <;> rfl
  · simp only [startAssembly, advanceAssembly]; split <;> split <;> rfl

theorem execRdReg_frame {r : Byte} {s t : State} (h : execRdReg r s = .next t) :
    t = { s with cmdStatus := t.cmdStatus, outputs := t.outputs } := by
  rcases execRdReg_next h with ⟨_, rfl⟩ | ⟨_, _, rfl⟩ <;> rfl

theorem execRdBuf_frame {sel : Byte} {idx : Half} {s t : State} (h : execRdBuf sel idx s = .next t) :
    t = { s with cmdStatus := t.cmdStatus, outputs := t.outputs } := by
  rcases execRdBuf_next h with ⟨_, rfl⟩ | ⟨_, _, _, _, rfl⟩ | ⟨_, _, _, _, _, _, rfl⟩ <;> rfl

theorem execEvRxb_frame {a : Byte} {s t : State} (h : execEvRxb a s = .next t) :
    t = { s with rxWin := t.rxWin, rxCnt := t.rxCnt, rxOvf := t.rxOvf, rxLast := t.rxLast } := by
  rcases execEvRxb_next h with ⟨_, rfl⟩ | ⟨_, rfl⟩ <;> rfl

theorem execEvEdge_frame {pin : Byte} {level : Bool} {s t : State} (h : execEvEdge pin level s = .next t) :
    t = { s with debLevel := t.debLevel, debPend := t.debPend, debRun := t.debRun, debStart := t.debStart,
                 pinPhys := t.pinPhys } := by
  obtain ⟨_, _, ⟨_, rfl⟩ | ⟨_, rfl⟩⟩ := execEvEdge_next h
  · simp only [bounceEdge]; split <;> rfl
  · rfl

theorem execEvTick_frame {s t : State} (h : execEvTick s = .next t) :
    t = { s with now := s.now + 1#32, rxCnt := t.rxCnt, rxOvf := t.rxOvf, resValid := t.resValid, resCode := t.resCode,
                 resLost := t.resLost, nackReq := t.nackReq, resId := t.resId, resType := t.resType, resLen := t.resLen,
                 resCrcRx := t.resCrcRx, resCrcCalc := t.resCrcCalc, resN := t.resN, resPayload := t.resPayload,
                 debPend := t.debPend, debRun := t.debRun, outputs := t.outputs } := by
  obtain ⟨b, hb, ht⟩ := execEvTick_next h
  have hd : ∃ p r o, t = { b with debPend := p, debRun := r, outputs := o } := by
    rcases ht with ⟨_, rfl⟩ | ⟨_, rfl⟩
    · exact ⟨t.debPend, t.debRun, t.outputs, rfl⟩
    · obtain ⟨pend, h1, _⟩ := debFire_eq b
      exact ⟨_, _, _, h1⟩
  obtain ⟨p, r, o, rfl⟩ := hd
  rcases hb with ⟨_, rfl⟩ | ⟨_, w, _, rfl⟩ <;> rfl

end Sys2Proof.Machine
end

