-- ==== Sys2Proof/Laws/Invariant.lean ====
section
/-! SUPPORT. The shared operations against the invariant: what each needs to keep it. -/

namespace Sys2Proof.Machine

theorem setStatus_inv {s : State} (h : s.Inv) (c : CmdStatus) : (setStatus c s).Inv := { h with }

theorem emit_inv {s : State} (h : s.Inv) (e : Output) : (emit e s).Inv := { h with }

theorem advance_inv {s : State} (h : s.Inv) (rest : List Byte) : (advance rest s).Inv := { h with }

/-- An extended frame that `ENC.EXT` or `ENC.EXTA` builds has room. -/
theorem buildExt_fits {p : Params} (id ty : Byte) {d : List Byte} (h : d.length ≤ p.maxExt) :
    (buildExt id ty d).length ≤ p.txCap := by
  rw [buildExt_length]; unfold Params.txCap; omega

/-- The ACK and the NACK have room at every setting. -/
theorem markers_fit (p : Params) : ackBytes.length ≤ p.txCap ∧ nackBytes.length ≤ p.txCap := by
  simp [ackBytes, nackBytes, Params.txCap]

/-- A discarded assembly has nothing that could break a bound. -/
theorem extAbort_inv {s : State} (h : s.Inv) : (extAbort s).Inv := { h with
  extBufValued := fun i hi => absurd hi (Nat.not_lt_zero i)
  extLenLe := Nat.zero_le _
  extNextRange := by simp
  extNotBoth := by simp }

/-- A built sequence that is not empty, of a kind that is not `NONE`, and that fits the transmit buffer. -/
theorem transmit_inv {s : State} (h : s.Inv) {kind : TxKind} {w : List Byte} (hk : kind ≠ .none) (hw : w ≠ [])
    (hl : w.length ≤ s.params.txCap) : (transmit kind w s).Inv := { h with
  txBufWf := Memory.writeBytes_wf h.txBufWf 0 w
  txBufSize := Memory.writeBytes_withinSize h.txBufSize (by simpa using hl)
  txBufValued := valuedBelow_of_holds (holds_writeBytes s.txBuf w)
  txLenLe := hl
  txLenKind := by simp [hk, hw] }

/-- A latched outcome other than `NONE`, whose frame, if valid, has the length its length byte gives. -/
theorem latch_inv {s : State} (h : s.Inv) {w : List Byte} {r : ResCode × Half × Half} (hn : r.1 ≠ .none)
    (hf : r.1 = .frameOk → 5 ≤ w.length ∧ (w.getD 2 0).toNat ≤ s.params.maxShort ∧ w.length = (w.getD 2 0).toNat + 5) :
    (latch w r s).Inv := { h with
  resPayloadWf := by
    simp only [latch_resPayload]; split
    · exact Memory.writeBytes_wf h.resPayloadWf _ _
    · exact h.resPayloadWf
  resPayloadSize := by
    simp only [latch_resPayload]; split
    · obtain ⟨_, hle, hlen⟩ := hf ‹_›
      refine Memory.writeBytes_withinSize h.resPayloadSize ?_
      simp only [latch_params, List.length_take]; omega
    · exact h.resPayloadSize
  resPayloadValued := by
    simp only [latch_resCode, latch_resPayload]; intro hc
    obtain ⟨_, _, hlen⟩ := hf hc
    rw [if_pos hc]
    have hv := valuedBelow_of_holds (holds_writeBytes s.resPayload ((w.drop 3).take (w.getD 2 0).toNat))
    rw [List.length_take, List.length_drop, Nat.min_eq_left (by omega)] at hv
    exact hv
  frameOkLen := fun hc => ⟨(hf hc).2.1, (hf hc).2.2⟩
  noneInvalid := fun hc => absurd hc hn }

end Sys2Proof.Machine
end

