-- ==== Sys2Proof/Laws/PerInstr.lean ====
section
/-! SUPPORT. Facts stated of every record as syntax, one lemma per constructor. -/

namespace Sys2Proof.Laws.RecordShape

/-- The record's bytes begin with an opcode that R83 or R84 lists, and a well-formed record is as long as its format and its
own count say (spec/30_encoding.md R81, R86). -/
def Statement (i : Instr) : Prop :=
  ∃ op operands, encode i = op :: operands ∧ (formatOf op).isSome = true ∧
    (i.wf = true → (encode i).length = recordLength (fun k => (encode i).getD k 0))

/-- Formats FB: the count's bytes stand after the opcode. -/
theorem length_fb {op : Byte} (h : formatOf op = some .fb) {d : List Byte} (hd : blockFits d = true) :
    (op :: encodeBlock d).length = recordLength (fun k => (op :: encodeBlock d).getD k 0) := by
  simp only [recordLength, List.getD_cons_zero, h]
  simp only [encodeBlock, encodeU16, List.cons_append, List.nil_append, List.getD_cons_succ, List.getD_cons_zero, u16le_bytes,
    count_of_fits hd, List.length_cons]
  omega

/-- Formats FS and FG: the count's bytes stand after two operand bytes. -/
theorem length_fs {op : Byte} (h : formatOf op = some .fs ∨ formatOf op = some .fg) (a b : Byte) {d : List Byte}
    (hd : blockFits d = true) :
    (op :: a :: b :: encodeBlock d).length = recordLength (fun k => (op :: a :: b :: encodeBlock d).getD k 0) := by
  rcases h with h | h <;>
  · simp only [recordLength, List.getD_cons_zero, h]
    simp only [encodeBlock, encodeU16, List.cons_append, List.nil_append, List.getD_cons_succ, List.getD_cons_zero, u16le_bytes,
      count_of_fits hd, List.length_cons]
    omega

theorem crcClr : Statement .crcClr := ⟨_, _, rfl, rfl, fun _ => rfl⟩
theorem crcByte (a : Byte) : Statement (.crcByte a) := ⟨_, _, rfl, rfl, fun _ => rfl⟩
theorem crcBlk (d : List Byte) : Statement (.crcBlk d) := ⟨_, _, rfl, rfl, length_fb rfl⟩
theorem encShort (id ty : Byte) (d : List Byte) : Statement (.encShort id ty d) :=
  ⟨_, _, rfl, rfl, length_fs (.inl rfl) id ty⟩
theorem encExt (id ty : Byte) (d : List Byte) : Statement (.encExt id ty d) :=
  ⟨_, _, rfl, rfl, length_fs (.inl rfl) id ty⟩
theorem encExta (id ty : Byte) : Statement (.encExta id ty) := ⟨_, _, rfl, rfl, fun _ => rfl⟩
theorem encAck : Statement .encAck := ⟨_, _, rfl, rfl, fun _ => rfl⟩
theorem encNack : Statement .encNack := ⟨_, _, rfl, rfl, fun _ => rfl⟩
theorem decShort (d : List Byte) : Statement (.decShort d) := ⟨_, _, rfl, rfl, length_fb rfl⟩
theorem rxClr : Statement .rxClr := ⟨_, _, rfl, rfl, fun _ => rfl⟩
theorem extSeg (total current : Byte) (d : List Byte) : Statement (.extSeg total current d) :=
  ⟨_, _, rfl, rfl, length_fs (.inr rfl) total current⟩
theorem rdReg (r : Byte) : Statement (.rdReg r) := ⟨_, _, rfl, rfl, fun _ => rfl⟩
theorem rdBuf (sel : Byte) (idx : Half) : Statement (.rdBuf sel idx) := ⟨_, _, rfl, rfl, fun _ => rfl⟩
theorem evRxb (a : Byte) : Statement (.evRxb a) := ⟨_, _, rfl, rfl, fun _ => rfl⟩
theorem evTick : Statement .evTick := ⟨_, _, rfl, rfl, fun _ => rfl⟩
theorem evEdge (pin : Byte) (level : Bool) : Statement (.evEdge pin level) := ⟨_, _, rfl, rfl, fun _ => rfl⟩
theorem evReset : Statement .evReset := ⟨_, _, rfl, rfl, fun _ => rfl⟩

end Sys2Proof.Laws.RecordShape
end

