-- ==== Sys2Proof/Tests/Slice0.lean ====
section
/-! SUPPORT. The model's own tests. Expected values are those of spec/95_test_vectors.md (the vector is named) or of the rule
named; each `witness_…` theorem shows a concrete state and operands that meet the hypotheses of the obligation it is named after. -/

namespace Sys2Proof.Machine.Tests

/-! ### Helpers -/

/-- One field of the next state; none where the step stops. -/
def field {α : Type} (f : State → α) (r : Result) : Option α :=
  match r with
  | .next s => some (f s)
  | .fault _ => none
  | .refused _ => none

/-- Why a step was refused. -/
def refusal (r : Result) : Option Refusal :=
  match r with
  | .next _ => none
  | .fault _ => none
  | .refused x => some x

/-- Small parameters: payloads of at most 3 and 4 bytes, timers of 2 ticks, 2 pins. -/
def tinyParams : Params where
  maxShort := 3
  maxExt := 4
  rxDataMarker := 0x4E#8
  tGap := 2
  tDeb := 2
  tickPeriod := mkRat 1 32768
  debPresent := true
  nPins := 2
  debInitLevel := 0x3#32
  debRestartOnBounce := true

/-- The reset state of these parameters. -/
def tiny : State := State.resetWith tinyParams

/-- The same without DEB. -/
def tinyNoDeb : State := State.resetWith { tinyParams with debPresent := false }

/-- The reset state with a record stream. -/
def presented (bytes : List Byte) : State := { tiny with stream := bytes }

/-- An open window holding these bytes, the last of them received at the present tick. -/
def window (w : List Byte) : State := { tiny with rxWin := Memory.writeBytes [] 0 w, rxCnt := w.length }

/-- The same window one tick before its gap timer is due. -/
def windowDue (w : List Byte) : State := { window w with now := 1#32 }

/-- An assembly of 3 segments with the first, of one byte, accepted. -/
def assembling : State := { tiny with extBuf := [(0, 0xAA#8)], extLen := 1, extAsm := true, extTotal := 3#8, extNext := 2 }

/-- A completed payload of 2 bytes. -/
def assembled : State := { tiny with extBuf := [(0, 0xAA#8), (1, 0xBB#8)], extLen := 2, extDone := true, extTotal := 1#8 }

/-- A state with something in every unit: an open window, a latched frame, a built frame, an assembly, a pending pin. -/
def busy : State :=
  { tiny with
    crc := 0x6174#16
    rxWin := [(0, 0x41#8), (1, 0x43#8)]
    rxCnt := 2
    rxLast := 5#32
    resValid := true
    resCode := .frameOk
    resLen := 1#8
    resN := 6
    resPayload := [(0, 0x55#8)]
    txBuf := [(0, 0x41#8), (1, 0x43#8), (2, 0x4B#8)]
    txLen := 3
    txKind := .ack
    extBuf := [(0, 0xAA#8)]
    extLen := 1
    extAsm := true
    extTotal := 3#8
    extNext := 2
    now := 6#32
    debLevel := 0x2#32
    pinPhys := 0x2#32
    debPend := 0x1#32
    debRun := true
    debStart := 5#32 }

/-! ### Well-formedness: a block of 65536 bytes has no count field (R82) -/

theorem blockFits_replicate (n : Nat) : blockFits (List.replicate n 0#8) = decide (n < 65536) := by simp [blockFits]

theorem test_wf_refuses_long_crcBlk : (Instr.crcBlk (List.replicate 65536 0#8)).wf = false := by
  simp only [Instr.wf, blockFits_replicate]; decide
theorem test_wf_refuses_long_encShort : (Instr.encShort 0#8 0#8 (List.replicate 65536 0#8)).wf = false := by
  simp only [Instr.wf, blockFits_replicate]; decide
theorem test_wf_refuses_long_encExt : (Instr.encExt 0#8 0#8 (List.replicate 65536 0#8)).wf = false := by
  simp only [Instr.wf, blockFits_replicate]; decide
theorem test_wf_refuses_long_decShort : (Instr.decShort (List.replicate 65536 0#8)).wf = false := by
  simp only [Instr.wf, blockFits_replicate]; decide
theorem test_wf_refuses_long_extSeg : (Instr.extSeg 1#8 1#8 (List.replicate 65536 0#8)).wf = false := by
  simp only [Instr.wf, blockFits_replicate]; decide
theorem test_wf_admits_longest_block : (Instr.crcBlk (List.replicate 65535 0#8)).wf = true := by
  simp only [Instr.wf, blockFits_replicate]; decide

/-! ### Decoding: every row's bytes, written out from R81, R83 and R84 -/

theorem test_decode_crcClr : decode [0x01#8, 0x55#8] = .instr .crcClr [0x55#8] := by decide
theorem test_decode_crcByte : decode [0x02#8, 0x4E#8] = .instr (.crcByte 0x4E#8) [] := by decide
theorem test_decode_crcBlk : decode [0x03#8, 0x02#8, 0x00#8, 0x61#8, 0x74#8, 0x40#8] = .instr (.crcBlk [0x61#8, 0x74#8]) [0x40#8] := by
  decide
theorem test_decode_encShort : decode [0x10#8, 0x10#8, 0x4E#8, 0x01#8, 0x00#8, 0x55#8] = .instr (.encShort 0x10#8 0x4E#8 [0x55#8]) [] := by
  decide
theorem test_decode_encExt : decode [0x11#8, 0x07#8, 0x4E#8, 0x02#8, 0x00#8, 0xAA#8, 0xBB#8] =
    .instr (.encExt 0x07#8 0x4E#8 [0xAA#8, 0xBB#8]) [] := by decide
theorem test_decode_encExta : decode [0x12#8, 0x09#8, 0x4E#8] = .instr (.encExta 0x09#8 0x4E#8) [] := by decide
theorem test_decode_encAck : decode [0x13#8] = .instr .encAck [] := by decide
theorem test_decode_encNack : decode [0x14#8] = .instr .encNack [] := by decide
theorem test_decode_decShort : decode [0x20#8, 0x01#8, 0x00#8, 0x04#8] = .instr (.decShort [0x04#8]) [] := by decide
theorem test_decode_rxClr : decode [0x21#8] = .instr .rxClr [] := by decide
theorem test_decode_extSeg : decode [0x30#8, 0x02#8, 0x01#8, 0x02#8, 0x00#8, 0xAA#8, 0xBB#8] =
    .instr (.extSeg 0x02#8 0x01#8 [0xAA#8, 0xBB#8]) [] := by decide
theorem test_decode_rdReg : decode [0x40#8, 0x01#8] = .instr (.rdReg 0x01#8) [] := by decide
theorem test_decode_rdBuf : decode [0x41#8, 0x01#8, 0x2C#8, 0x01#8] = .instr (.rdBuf 0x01#8 0x012C#16) [] := by decide
theorem test_decode_evRxb : decode [0x80#8, 0x04#8] = .instr (.evRxb 0x04#8) [] := by decide
theorem test_decode_evTick : decode [0x81#8] = .instr .evTick [] := by decide
theorem test_decode_evEdge : decode [0x82#8, 0x03#8, 0x01#8] = .instr (.evEdge 0x03#8 true) [] := by decide
theorem test_decode_evReset : decode [0xFF#8] = .instr .evReset [] := by decide

/-- Reserved commands are 1-byte records (R87); a reserved event, a truncated block and an edge level of 2 are refused (R88, R89). -/
theorem test_decode_rejects_by_name :
    decode [0x00#8, 0x7F#8] = .reservedCommand 0x00#8 [0x7F#8] ∧ decode [0x83#8] = .reject (.reservedEvent 0x83#8) ∧
    decode [0x03#8, 0x02#8, 0x00#8, 0x61#8] = .reject .truncated ∧ decode [0x82#8, 0x00#8, 0x02#8] = .reject (.edgeLevel 0x02#8) := by
  decide

/-- The words of spec/opcode_table.json, 8 bits each, are read with zero operands. -/
theorem test_table_words :
    [0x01, 0x02, 0x03, 0x10, 0x11, 0x12, 0x13, 0x14, 0x20, 0x21, 0x30, 0x40, 0x41, 0x80, 0x81, 0x82, 0xFF].map (decodeTableWord 8) =
      [some .crcClr, some (.crcByte 0#8), some (.crcBlk []), some (.encShort 0#8 0#8 []), some (.encExt 0#8 0#8 []),
       some (.encExta 0#8 0#8), some .encAck, some .encNack, some (.decShort []), some .rxClr, some (.extSeg 0#8 0#8 []),
       some (.rdReg 0#8), some (.rdBuf 0#8 0#16), some (.evRxb 0#8), some .evTick, some (.evEdge 0#8 false), some .evReset] := by
  decide

/-- Bits above `nbits` count as 0, later bytes count on from the first (a two-byte word, `CRC.BYTE 0x4E`). -/
theorem test_table_word_operands :
    decodeTableWord 16 0x4E02 = some (.crcByte 0x4E#8) ∧ decodeTableWord 8 0x4E02 = some (.crcByte 0#8) := by decide

/-- The very next step after `withFetchWord` runs the record: `EV.TICK` sets `now = 1`, `CRC.BYTE 0x4E` gives 0x3480 (R113). -/
theorem test_withFetchWord_runs :
    field (·.now) (step (State.reset.withFetchWord 8 0x81)) = some 1#32 ∧
    field (·.crc) (step (State.reset.withFetchWord 16 0x4E02)) = some 0x3480#16 := by decide

/-! ### Parameters (R7) -/

/-- Nominal ticks are rounded up: 300 µs and 2.5 ms are 3 and 25 ticks of 100 µs, 10 and 82 ticks of 1/32768 s. -/
theorem test_nominal_ticks :
    Config.params.nominalTGap = 3 ∧ Config.params.nominalTDeb = 25 ∧ tinyParams.nominalTGap = 10 ∧ tinyParams.nominalTDeb = 82 := by
  decide +kernel
theorem test_txCap_default : Config.params.txCap = 4804 ∧ Config.params.rxCap = 247 := by decide
theorem test_default_params_wf : Config.params.wf := by decide

/-! ### Checksum (vectors V-CRC, V-UPD) and the CRC unit (V-CU) -/

theorem test_crc16_check_value :
    crc16 [0x31#8, 0x32#8, 0x33#8, 0x34#8, 0x35#8, 0x36#8, 0x37#8, 0x38#8, 0x39#8] = 0xBB3D#16 := by decide +kernel
theorem test_crc16_update_vector : crc16Update 0x1234#16 0x56#8 = 0xE993#16 := by decide
theorem test_crcClr : field (·.crc) (exec .crcClr { tiny with crc := 0xBB3D#16 }) = some 0#16 := by decide
theorem test_crcByte : field (·.crc) (exec (.crcByte 0x4E#8) tiny) = some 0x3480#16 := by decide
theorem test_crcBlk_continues : field (·.crc) (exec (.crcBlk [0x61#8, 0x74#8]) { tiny with crc := 0x6174#16 }) = some 0x5FCF#16 := by
  decide +kernel
theorem test_crcBlk_empty : field (·.crc) (exec (.crcBlk []) { tiny with crc := 0x6174#16 }) = some 0x6174#16 := by decide

/-! ### Encoder (V-ENC) -/

theorem test_encShort_frame : field (fun t => t.txBuf.map (·.2)) (exec (.encShort 0x10#8 0x4E#8 [0x55#8]) tiny) =
    some [0x10#8, 0x4E#8, 0x01#8, 0x55#8, 0x78#8, 0xA5#8] := by decide +kernel
theorem test_encShort_too_long : field (fun t => (t.cmdStatus, t.txLen)) (exec (.encShort 0#8 0#8 [0#8, 0#8, 0#8, 0#8]) busy) =
    some (.encLen, 3) := by decide
/-- Where `P_MAX_SHORT ≥ P_MAX_EXT` a frame has to fit `P_TX_CAP = P_MAX_EXT + 4` (R39, R62; log entry 7): at 3 and 2 a 6-byte frame
is built whole and a 7-byte frame is not. -/
theorem test_encShort_keeps_to_txCap :
    field (fun t => (t.cmdStatus, t.txLen)) (exec (.encShort 0#8 0#8 [0#8]) (State.resetWith { tinyParams with maxExt := 2 })) =
      some (.ok, 6) ∧
    field (fun t => (t.cmdStatus, t.txBuf, t.txLen)) (exec (.encShort 0#8 0#8 [0#8, 0#8])
      (State.resetWith { tinyParams with maxExt := 2 })) = some (.encLen, [], 0) := by decide +kernel
theorem test_encExt_frame : field (fun t => (t.txBuf.map (·.2), t.outputs)) (exec (.encExt 0x07#8 0x4E#8 [0xAA#8, 0xBB#8]) tiny) =
    some ([0x07#8, 0x4E#8, 0x02#8, 0x00#8, 0xAA#8, 0xBB#8], [.txReady .ext 6#16]) := by decide
/-- V-ENC-11: a length of 300 is sent as `2C 01`. -/
theorem test_encExt_length_little_endian : (buildExt 0x07#8 0x4E#8 (List.replicate 300 0#8)).take 4 = [0x07#8, 0x4E#8, 0x2C#8, 0x01#8] := by
  decide +kernel
theorem test_encExta_frame : field (fun t => t.txBuf.map (·.2)) (exec (.encExta 0x09#8 0x4E#8) assembled) =
    some [0x09#8, 0x4E#8, 0x02#8, 0x00#8, 0xAA#8, 0xBB#8] := by decide
theorem test_encExta_while_assembling : field (·.cmdStatus) (exec (.encExta 0x01#8 0x01#8) assembling) = some .extNotReady := by decide
theorem test_encAck : field (fun t => (t.txBuf.map (·.2), t.outputs)) (exec .encAck tiny) =
    some ([0x41#8, 0x43#8, 0x4B#8], [.txReady .ack 3#16]) := by decide
theorem test_encNack : field (fun t => (t.txBuf.map (·.2), t.nackReq)) (exec .encNack { tiny with nackReq := true }) =
    some ([0x4E#8, 0x41#8, 0x43#8, 0x4B#8], false) := by decide

/-! ### Decoder and latch (V-DEC, V-LAT) -/

/-- V-DEC-4: a flipped length bit is a checksum error, not a length error. -/
theorem test_decShort_checksum_first : field (fun t => (t.resCode, t.resCrcRx, t.resCrcCalc, t.outputs))
    (exec (.decShort [0x04#8, 0x4E#8, 0x01#8, 0x61#8, 0x74#8]) tiny) =
      some (.crcErr, 0x6174#16, 0xA1B5#16, [.rxResult .crcErr, .nackReq]) := by decide +kernel
/-- V-DEC-10: a good checksum with a length byte that does not fit. -/
theorem test_decShort_length : field (fun t => (t.resCode, t.resN, t.cmdStatus))
    (exec (.decShort [0x04#8, 0x4E#8, 0x01#8, 0xA1#8, 0xB5#8]) tiny) = some (.lenErr, 5, .ok) := by decide +kernel
theorem test_rxClr : field (fun t => (t.resValid, t.resLost, t.nackReq, t.resCode))
    (exec .rxClr { busy with resLost := true, nackReq := true }) = some (false, false, true, .frameOk) := by decide

/-! ### Receive path (V-RX) -/

theorem test_evRxb_appends : field (fun t => (t.rxWin, t.rxCnt, t.rxLast)) (exec (.evRxb 0x04#8) { tiny with now := 7#32 }) =
    some ([(0, 0x04#8)], 1, 7#32) := by decide
theorem test_evRxb_full : field (fun t => (t.rxCnt, t.rxOvf, t.rxLast)) (exec (.evRxb 0x04#8) { tiny with rxCnt := 8, now := 7#32 }) =
    some (8, true, 7#32) := by decide
/-- V-RX-21 in small: elapsed time is right across the wrap of `now`. -/
theorem test_evTick_closes_across_wrap : field (fun t => (t.now, t.resCode, t.rxCnt))
    (exec .evTick { window [0x41#8, 0x43#8, 0x4B#8] with now := 0xFFFFFFFF#32, rxLast := 0xFFFFFFFE#32 }) =
      some (0#32, .ackRx, 0) := by decide
/-- V-DEB-12 in small: in one tick the receive outputs come before the button's. -/
theorem test_evTick_receive_before_debounce : field (·.outputs)
    (exec .evTick { windowDue [0x41#8, 0x43#8, 0x4B#8] with debLevel := 0x2#32, pinPhys := 0x2#32, debPend := 0x1#32, debRun := true }) =
      some [.rxResult .ackRx, .button 0 true] := by decide
/-- R283: a first tick after reset only sets `now = 1`. -/
theorem test_first_tick_after_reset : field id (exec .evTick State.reset) = some { State.reset with now := 1#32 } := by decide

/-! ### Assembler (V-EXT) -/

theorem test_extSeg_completes : field (fun t => (t.extDone, t.extLen, t.extBuf, t.outputs))
    (exec (.extSeg 2#8 2#8 [0xCC#8]) { assembling with extTotal := 2#8 }) =
      some (true, 2, [(0, 0xAA#8), (1, 0xCC#8)], [.extDone 2#16]) := by decide
/-- V-EXT-6: a repeated segment is out of sequence and discards the assembly. -/
theorem test_extSeg_repeated : field (fun t => (t.cmdStatus, t.extAsm, t.extTotal, t.extNext, t.extLen))
    (exec (.extSeg 3#8 2#8 [0x02#8]) { assembling with extNext := 3 }) = some (.extSeq, false, 0#8, 0, 0) := by decide

/-! ### Debounce (V-DEB) -/

theorem test_evEdge_captures : field (fun t => (t.debLevel, t.debPend, t.debRun, t.debStart, t.pinPhys))
    (exec (.evEdge 0#8 false) { tiny with now := 100#32 }) = some (0x2#32, 0x1#32, true, 100#32, 0x2#32) := by decide
/-- V-DEB-14: a pin that does not exist is refused. -/
theorem test_evEdge_refuses_pin : refusal (exec (.evEdge 2#8 false) tiny) = some (.edgePin 2#8) ∧
    refusal (exec (.evEdge 0#8 false) tinyNoDeb) = some .debAbsent := by decide

/-! ### Read-out (V-RD) and reset (V-RST) -/

/-- V-RD-8: `RD.REG 0x01` reports the command before it. -/
theorem test_rdReg_status : field (fun t => (t.outputs, t.cmdStatus)) (exec (.rdReg 0x01#8) { tiny with cmdStatus := .badOpcode }) =
    some ([.read 8#32], .ok) := by decide
theorem test_rdReg_fields : field (·.outputs) (exec (.rdReg 0x02#8) { busy with resLost := true, nackReq := true }) =
    some [.read 0x71#32] := by decide
theorem test_rdBuf_bound : field (·.outputs) (exec (.rdBuf 1#8 2#16) busy) = some [.read 0x4B#32] ∧
    field (·.cmdStatus) (exec (.rdBuf 1#8 3#16) busy) = some .badIndex := by decide
theorem test_rdBuf_payload_of_no_frame : field (·.cmdStatus) (exec (.rdBuf 0#8 0#16) { busy with resCode := .lenErr }) =
    some .badIndex := by decide
theorem test_evReset : field id (exec .evReset busy) = some tiny := by decide
/-- V-RD-8: a reserved command opcode. -/
theorem test_reserved_command : field (fun t => (t.cmdStatus, t.stream)) (step (presented [0x7F#8, 0x81#8])) =
    some (.badOpcode, [0x81#8]) := by decide

/-! ### Witnesses: records and stream -/

theorem witness_DecodeOfEncodeIsTheRecord : (Instr.extSeg 2#8 1#8 [0xAA#8, 0xBB#8]).wf = true := by decide
theorem witness_DecodedBytesAreTheEncoding : decode [0x82#8, 0x03#8, 0x01#8, 0x07#8] = .instr (.evEdge 3#8 true) [0x07#8] := by decide
theorem witness_StepRunsTheDecodedRecord :
    decode (presented [0x02#8, 0x4E#8, 0x81#8]).stream = .instr (.crcByte 0x4E#8) [0x81#8] ∧ tiny.stream = [] := by decide
theorem witness_EncodedStreamRunsItsRecordsInOrder :
    (∀ i ∈ [Instr.crcByte 0x4E#8, .evTick], i.wf = true) ∧
    (presented [0x02#8, 0x4E#8, 0x81#8, 0x13#8]).stream = ([Instr.crcByte 0x4E#8, .evTick].map encode).flatten ++ [0x13#8] := by
  decide
/-- The lowest, the highest and an inner reserved command opcode. -/
theorem witness_ReservedCommandSetsBadOpcode : ∀ op ∈ [0x00#8, 0x42#8, 0x7F#8],
    (presented [op, 0x81#8]).stream = op :: [0x81#8] ∧ op.toNat < 0x80 ∧
    op.toNat ∉ [0x01, 0x02, 0x03, 0x10, 0x11, 0x12, 0x13, 0x14, 0x20, 0x21, 0x30, 0x40, 0x41] := by decide
/-- The lowest and the highest reserved event opcode. -/
theorem witness_ReservedEventIsRefused : ∀ op ∈ [0x83#8, 0xFE#8],
    (presented [op]).stream = op :: [] ∧ 0x80 ≤ op.toNat ∧ op.toNat ∉ [0x80, 0x81, 0x82, 0xFF] := by decide
/-- A record cut after its first and before its last byte. -/
theorem witness_IllFormedRecordsAreRefused_truncated : ∀ k ∈ [1, 4],
    (Instr.crcBlk [0x61#8, 0x74#8]).wf = true ∧ 0 < k ∧ k < (encode (.crcBlk [0x61#8, 0x74#8])).length ∧
    (presented ((encode (.crcBlk [0x61#8, 0x74#8])).take k)).stream = (encode (.crcBlk [0x61#8, 0x74#8])).take k := by decide
/-- The lowest level above 1; the lowest pin that does not exist, at both levels; no DEB. -/
theorem witness_IllFormedRecordsAreRefused_edge :
    ((presented [0x82#8, 0#8, 2#8]).stream = 0x82#8 :: 0#8 :: 2#8 :: [] ∧ 1 < (2#8).toNat) ∧
    (∀ b ∈ [0#8, 1#8], (presented [0x82#8, 2#8, b]).stream = 0x82#8 :: 2#8 :: b :: [] ∧ b.toNat ≤ 1 ∧
      tiny.params.debPresent = true ∧ tiny.params.nPins ≤ (2#8).toNat) ∧
    ({ tinyNoDeb with stream := [0x82#8, 0#8, 0#8] }.stream = 0x82#8 :: 0#8 :: 0#8 :: [] ∧ tinyNoDeb.params.debPresent = false) := by
  decide
theorem witness_OnlyListedRecordsAreRefused :
    step (presented [0x83#8]) = .refused (.reservedEvent 0x83#8) ∧ step (presented [0x02#8]) = .refused .truncatedRecord ∧
    step (presented [0x82#8, 2#8, 0#8]) = .refused (.edgePin 2#8) := ⟨rfl, rfl, rfl⟩

/-! ### Witnesses: checksum and CRC unit -/

theorem witness_ChecksumIsLinear : [0x04#8, 0x4E#8].length = [0xFF#8, 0x01#8].length := by decide
/-- The first and the last bit of a sequence. -/
theorem witness_ChecksumSeesEverySingleBit : ∀ x ∈ [(0, 0), (2, 7)], x.1 < [0x04#8, 0x4E#8, 0x00#8].length ∧ x.2 < 8 := by decide
theorem witness_CrcBlkIsSuccessiveCrcBytes : [0x04#8] ≠ [] := by decide
theorem witness_AccumulatorBelongsToTheCrcUnit :
    Instr.encAck ≠ .crcClr ∧ (∀ a, Instr.encAck ≠ .crcByte a) ∧ (∀ d, Instr.encAck ≠ .crcBlk d) ∧ Instr.encAck ≠ .evReset ∧
    (∀ r, Instr.encAck ≠ .rdReg r) ∧ ∃ t, exec .encAck busy = .next t :=
  ⟨by simp, by simp, by simp, by simp, by simp, _, rfl⟩

/-! ### Witnesses: encoder -/

/-- The longest payload that is encoded and the shortest that is not, at the defaults and by the room in `tx_buf`. -/
theorem witness_EncShortBuildsTheFrame :
    ((List.replicate 242 0#8).length ≤ State.reset.params.maxShort ∧
      (List.replicate 242 0#8).length + 5 ≤ State.reset.params.txCap ∧ State.reset.params.maxShort < State.reset.params.maxExt) ∧
    State.reset.params.maxShort < (List.replicate 243 0#8).length ∧
    ([0#8].length ≤ tinyParams.maxShort ∧ [0#8].length + 5 ≤ { tinyParams with maxExt := 2 }.txCap) ∧
    { tinyParams with maxExt := 2 }.txCap < [0#8, 0#8].length + 5 := by
  decide +kernel
theorem witness_EncExtBuildsTheFrame :
    (List.replicate 4800 0#8).length ≤ State.reset.params.maxExt ∧ State.reset.params.maxExt < (List.replicate 4801 0#8).length := by
  simp only [List.length_replicate]; decide
theorem witness_EncExtaBuildsFromTheAssembledPayload :
    (assembled.extDone = true ∧ valuedBelow assembled.extBuf assembled.extLen) ∧ assembling.extDone = false := by decide
/-- An event, and an `ENC.SHORT` that fails. -/
theorem witness_BuiltSequenceStaysUntilTheNextEncode :
    (∃ t, exec .evTick busy = .next t) ∧
    (∃ t, exec (.encShort 0#8 0#8 [0#8, 0#8, 0#8, 0#8]) busy = .next t ∧ t.cmdStatus ≠ .ok) :=
  ⟨⟨_, rfl⟩, _, rfl, by decide⟩

/-! ### Witnesses: receive path and decoder -/

/-- The last byte that fits, and the first that does not. -/
theorem witness_ReceivedByteIsAppendedOrDropped :
    { tiny with rxCnt := 7 }.rxCnt < tiny.params.rxCap ∧ tiny.params.rxCap ≤ { tiny with rxCnt := 8 }.rxCnt := by decide
/-- A window on its last tick, one before it, and no window. -/
theorem witness_TickClosesTheWindowThenFiresDebounce :
    (holds (windowDue [0x41#8]).rxWin (windowDue [0x41#8]).rxCnt [0x41#8] ∧
      tiny.params.tGap ≤ ((windowDue [0x41#8]).now + 1#32 - (windowDue [0x41#8]).rxLast).toNat) ∧
    (holds (window [0x41#8]).rxWin (window [0x41#8]).rxCnt [0x41#8] ∧
      ((window [0x41#8]).now + 1#32 - (window [0x41#8]).rxLast).toNat < tiny.params.tGap) ∧
    holds tiny.rxWin tiny.rxCnt [] := by decide
/-- A due window of each kind: the data frame, the ACK, the NACK, another message, and one byte. -/
theorem witness_ClosedWindowIsClassified :
    ∀ w ∈ [[0x04#8, 0x4E#8, 0x00#8, 0x61#8, 0x74#8], [0x41#8, 0x43#8, 0x4B#8], [0x4E#8, 0x41#8, 0x43#8, 0x4B#8],
        [0x41#8, 0x43#8], [0x41#8]],
      holds (windowDue w).rxWin (windowDue w).rxCnt w ∧ 0 < (windowDue w).rxCnt ∧ (windowDue w).rxOvf = false ∧
      (windowDue w).params.tGap ≤ ((windowDue w).now + 1#32 - (windowDue w).rxLast).toNat := by decide
/-- A due window that overflowed, as a data frame and as another message. -/
theorem witness_ClosedWindowIsClassified_overflow :
    ∀ m ∈ [0x4E#8, 0x00#8], let s := { windowDue [0x04#8, m, 0#8, 0#8, 0#8, 0#8, 0#8, 0#8] with rxOvf := true }
      holds s.rxWin s.rxCnt [0x04#8, m, 0#8, 0#8, 0#8, 0#8, 0#8, 0#8] ∧ 0 < s.rxCnt ∧ s.rxCnt = s.params.rxCap ∧
      s.params.tGap ≤ (s.now + 1#32 - s.rxLast).toNat := by decide
/-- Each outcome of `DEC.SHORT` (V-DEC-7, 5, 10, 1): 4 and 5 bytes stand on the two sides of the length test. -/
theorem witness_DecShortLatchesTheOutcome :
    field (·.resCode) (exec (.decShort [0x04#8, 0x4E#8, 0x00#8, 0x61#8]) tiny) = some .lenErr ∧
    field (·.resCode) (exec (.decShort [0x04#8, 0x4E#8, 0x00#8, 0x61#8, 0x75#8]) tiny) = some .crcErr ∧
    field (·.resCode) (exec (.decShort [0x04#8, 0x4E#8, 0x01#8, 0xA1#8, 0xB5#8]) tiny) = some .lenErr ∧
    field (·.resCode) (exec (.decShort [0x04#8, 0x4E#8, 0x00#8, 0x61#8, 0x74#8]) tiny) = some .frameOk := by decide +kernel
theorem witness_EveryDecodeHasOneOfSixOutcomes :
    (∃ t, exec (.decShort []) tiny = .next t) ∧
    ∃ t, exec .evTick (windowDue [0x41#8]) = .next t ∧ 0 < (windowDue [0x41#8]).rxCnt ∧ t.rxCnt = 0 :=
  ⟨⟨_, rfl⟩, _, rfl, by decide, by decide⟩
theorem witness_DecodingAnEncodedShortFrameReproducesIt :
    (List.replicate 242 0#8).length ≤ State.reset.params.maxShort ∧ State.reset.params.maxShort ≤ 255 ∧
    (List.replicate 242 0#8).length + 5 ≤ State.reset.params.txCap := by decide +kernel
/-- The first and the last bit of the shortest frame. -/
theorem witness_SingleBitCorruptionGivesCrcErr :
    ∀ x ∈ [(0, 0), (4, 7)], x.1 < (buildShort 0x04#8 0x4E#8 []).length ∧ x.2 < 8 := by
  simp only [buildShort_length]; decide
theorem witness_ReceivedFrameIsLatchedAfterTheGap :
    tiny.params.wf ∧ [0x55#8, 0x56#8, 0x57#8].length ≤ tiny.params.maxShort ∧ tiny.rxCnt = 0 ∧ tiny.rxOvf = false := by decide
theorem witness_WindowClosesAtTheGapAndNotBefore :
    (window [0x41#8]).params.wf ∧ valuedBelow (window [0x41#8]).rxWin (window [0x41#8]).rxCnt ∧ 0 < (window [0x41#8]).rxCnt ∧
    (window [0x41#8]).rxLast = (window [0x41#8]).now ∧ 1 < (window [0x41#8]).params.tGap := by decide
/-- Set by a decode, and cleared by `ENC.NACK`. -/
theorem witness_NackRequestFollowsChecksumMismatch :
    (∃ t, exec (.decShort [0x04#8, 0x4E#8, 0x00#8, 0x61#8, 0x75#8]) tiny = .next t ∧ tiny.nackReq = false ∧ t.nackReq = true) ∧
    (∃ t, exec .encNack { tiny with nackReq := true } = .next t ∧ t.nackReq = false) :=
  ⟨⟨_, rfl, rfl, by decide +kernel⟩, _, rfl, rfl⟩
/-- Set by a decode over an unconsumed result, and cleared by `RX.CLR`. -/
theorem witness_LostResultIsSticky :
    (∃ t, exec (.decShort []) busy = .next t ∧ busy.resLost = false ∧ t.resLost = true) ∧
    (∃ t, exec .rxClr { busy with resLost := true } = .next t ∧ t.resLost = false) :=
  ⟨⟨_, rfl, rfl, by decide⟩, _, rfl, rfl⟩

/-! ### Witnesses: assembler -/

/-- Each impossible pair at its boundary; each way to be out of sequence; one byte too many on the first and on a later segment. -/
theorem witness_ExtSegRejectsAndAborts :
    ((0#8).toNat = 0 ∧ (2#8).toNat < (3#8).toNat) ∧
    (1 < (2#8).toNat ∧ (2#8).toNat ≤ (2#8).toNat ∧
      (tiny.extAsm = false ∧ (3#8).toNat ≠ assembling.extNext ∧ 4#8 ≠ assembling.extTotal)) ∧
    (tiny.params.maxExt < 0 + (List.replicate 5 0#8).length) ∧
    (1 ≤ (2#8).toNat ∧ (2#8).toNat ≤ (3#8).toNat ∧
      (assembling.extAsm = true ∧ (2#8).toNat = assembling.extNext ∧ 3#8 = assembling.extTotal) ∧
      assembling.params.maxExt < assembling.extLen + (List.replicate 4 0#8).length) := by decide
/-- A first segment and a later one, each filling the payload exactly. -/
theorem witness_ExtSegAcceptsTheNextSegment :
    (1 ≤ (1#8).toNat ∧ (1#8).toNat ≤ (1#8).toNat ∧ 0 + (List.replicate 4 0#8).length ≤ tiny.params.maxExt) ∧
    (1 ≤ (2#8).toNat ∧ (2#8).toNat ≤ (3#8).toNat ∧
      (assembling.extAsm = true ∧ (2#8).toNat = assembling.extNext ∧ 3#8 = assembling.extTotal) ∧
      assembling.extLen + (List.replicate 3 0#8).length ≤ assembling.params.maxExt) := by decide
/-- One segment, and 255 of them. -/
theorem witness_InOrderSegmentsAssembleThePayload :
    (1 ≤ [[0xAA#8, 0xBB#8]].length ∧ [[0xAA#8, 0xBB#8]].length ≤ 255 ∧ [[0xAA#8, 0xBB#8]].flatten.length ≤ tiny.params.maxExt) ∧
    (1 ≤ (List.replicate 255 [0xAA#8]).length ∧ (List.replicate 255 [0xAA#8]).length ≤ 255 ∧
      (List.replicate 255 [0xAA#8]).flatten.length ≤ State.reset.params.maxExt) := by decide +kernel
theorem witness_AssemblerWrittenOnlyByExtSeg :
    (∃ t, exec (.encExta 0x09#8 0x4E#8) assembled = .next t) ∧ (∀ a b d, Instr.encExta 0x09#8 0x4E#8 ≠ .extSeg a b d) ∧
    Instr.encExta 0x09#8 0x4E#8 ≠ .evReset := ⟨⟨_, rfl⟩, by simp, by simp⟩

/-! ### Witnesses: debounce -/

/-- The last pin that exists, pending and not pending. -/
theorem witness_EdgeIsCapturedOrBounced :
    tiny.params.debPresent = true ∧ (1#8).toNat < tiny.params.nPins ∧ tiny.params.nPins ≤ 32 ∧
    pinBit tiny.debPend (1#8).toNat = false ∧ pinBit { tiny with debPend := 0x2#32 }.debPend (1#8).toNat = true := by decide
/-- The timer exactly due, in a tick that also closes a window, with one pin that matches and one that does not. -/
theorem witness_ConfirmationEmitsInPinOrder :
    let s := { windowDue [0x41#8] with debPend := 0x3#32, debLevel := 0x1#32, pinPhys := 0x3#32, debRun := true }
    valuedBelow s.rxWin s.rxCnt ∧ s.params.debPresent = true ∧ s.debRun = true ∧ s.params.tDeb ≤ (s.now + 1#32 - s.debStart).toNat := by decide
theorem busy_inv : busy.Inv := by constructor <;> decide
/-- A pin that is not pending while another is, edges 0 and 1 tick apart, the shortest quiet. -/
theorem witness_EdgeBurstGivesOneEventOrNone :
    busy.Inv ∧ busy.params.debPresent = true ∧ (1#8).toNat < busy.params.nPins ∧ pinBit busy.debPend (1#8).toNat = false ∧
    (∀ g ∈ [0, 1], g < busy.params.tDeb) ∧ busy.params.tDeb ≤ 2 := ⟨busy_inv, by decide⟩
theorem witness_WithoutDebNothingOfItActs :
    tinyNoDeb.params.debPresent = false ∧ (∃ t, exec .evTick tinyNoDeb = .next t) ∧
    (∀ r ∈ [0x12#8, 0x16#8], 0x12 ≤ r.toNat ∧ r.toNat ≤ 0x16) := ⟨rfl, ⟨_, rfl⟩, by decide⟩

/-! ### Witnesses: read-out, reset and whole-machine rules -/

theorem witness_RdRegReadsEveryRegister :
    tiny.params.debPresent = true ∧ (∀ r ∈ [0x17#8, 0xFF#8], 0x17 ≤ r.toNat) ∧
    (0x12 ≤ (0x12#8).toNat ∧ tinyNoDeb.params.debPresent = false) := by decide
/-- The first selector that does not exist; the last readable byte and the first unreadable one of each buffer. -/
theorem witness_RdBufReadsBelowTheLength :
    3 < (4#8).toNat ∧
    ((busy.resCode = .frameOk ∧ (0#16).toNat < busy.resLen.toNat ∧ busy.resPayload.read 0 = some 0x55#8) ∧
      ¬ (1#16).toNat < busy.resLen.toNat ∧ tiny.resCode ≠ .frameOk) ∧
    (((2#16).toNat < busy.txLen ∧ busy.txBuf.read 2 = some 0x4B#8) ∧ ¬ (3#16).toNat < busy.txLen) ∧
    (((0#16).toNat < busy.extLen ∧ busy.extBuf.read 0 = some 0xAA#8) ∧ ¬ (1#16).toNat < busy.extLen) ∧
    (((1#16).toNat < busy.rxCnt ∧ busy.rxWin.read 1 = some 0x43#8) ∧ ¬ (2#16).toNat < busy.rxCnt) := by decide
theorem witness_ReadsAreIdempotent :
    (0x00#8 ≠ 0x01#8 ∧ ∃ t, exec (.rdReg 0x00#8) busy = .next t) ∧ ∃ t, exec (.rdBuf 1#8 2#16) busy = .next t :=
  ⟨⟨by decide, _, rfl⟩, _, rfl⟩
theorem witness_InsertedReadChangesNothingElse :
    (∀ i ∈ [Instr.evTick, .encAck], i ≠ .rdReg 0x01#8) ∧ (∃ u, exec (.rdReg 0x01#8) busy = .next u) ∧
    (∃ t, execSeq [.evTick, .encAck] busy = .next t) ∧ ∃ i ∈ [Instr.evTick, .encAck], isCommand i = true :=
  ⟨by decide, ⟨_, rfl⟩, ⟨_, rfl⟩, .encAck, by simp, rfl⟩
theorem witness_ResetMeetsTheInvariant : tinyParams.wf := by decide
theorem witness_StepKeepsTheInvariant : { busy with stream := [0x81#8] }.Inv ∧ ∃ t, step { busy with stream := [0x81#8] } = .next t :=
  ⟨by constructor <;> decide, _, rfl⟩
theorem witness_InvariantRulesOutFaults : busy.Inv := busy_inv
theorem witness_RunsFromResetNeverFault : tinyParams.wf := by decide
theorem witness_ParametersAreNeverWritten : ∃ t, step (presented [0xFF#8]) = .next t := ⟨_, rfl⟩
/-- Every record completes somewhere. -/
theorem witness_EachRecordEndsInItsStatusCodes :
    ∀ i ∈ [Instr.crcClr, .crcByte 0#8, .crcBlk [], .encShort 0#8 0#8 [], .encExt 0#8 0#8 [], .encExta 0#8 0#8, .encAck, .encNack,
        .decShort [], .rxClr, .extSeg 1#8 1#8 [], .rdReg 0#8, .rdBuf 4#8 0#16, .evRxb 0#8, .evTick, .evEdge 0#8 false, .evReset],
      (field id (exec i assembled)).isSome = true := by decide
/-- A failing encode, and a failing segment. -/
theorem witness_FailuresArePrecise :
    (isCommand (.encExta 0#8 0#8) = true ∧ ∃ t, exec (.encExta 0#8 0#8) busy = .next t ∧ t.cmdStatus ≠ .ok) ∧
    (isCommand (.extSeg 0#8 1#8 []) = true ∧ ∃ t, exec (.extSeg 0#8 1#8 []) busy = .next t ∧ t.cmdStatus ≠ .ok) :=
  ⟨⟨rfl, _, rfl, by decide⟩, rfl, _, rfl, by decide⟩
theorem witness_OnlyTicksAdvanceNow :
    (∃ t, exec .evTick busy = .next t) ∧ ∃ t, exec (.evRxb 0#8) busy = .next t := ⟨⟨_, rfl⟩, _, rfl⟩
theorem witness_DebounceWrittenOnlyByEdgesAndTicks :
    (∀ p l, Instr.evTick ≠ .evEdge p l) ∧ Instr.evTick ≠ .evReset ∧ (∃ t, exec .evTick busy = .next t) ∧
    ∃ t, exec (.evRxb 0#8) busy = .next t := ⟨by simp, by simp, ⟨_, rfl⟩, _, rfl⟩
theorem witness_OutputsComeFromTheirRecords :
    (∃ t, exec .encAck busy = .next t) ∧ ∃ t, exec .evTick (windowDue [0x41#8]) = .next t := ⟨⟨_, rfl⟩, _, rfl⟩

end Sys2Proof.Machine.Tests
end

/-! ### The scope rules: what no step writes, and the block without DEB (spec/00_scope.md R7, R9) -/

namespace Sys2Proof.Machine

/-- No record's meaning writes a parameter: each meaning's frame leaves them out, and `EV.RESET` copies them (R280). -/
theorem exec_params {i : Instr} {s t : State} (h : exec i s = .next t) : t.params = s.params := by
  cases i with
  | crcClr => rw [execCrcClr_frame h]
  | crcByte a => rw [execCrcByte_frame h]
  | crcBlk d => rw [execCrcBlk_frame h]
  | encShort id ty d => rw [execEncShort_frame h]
  | encExt id ty d => rw [execEncExt_frame h]
  | encExta id ty => rw [execEncExta_frame h]
  | encAck => rw [execEncAck_frame h]
  | encNack => rw [execEncNack_frame h]
  | decShort d => rw [execDecShort_frame h]
  | rxClr => rw [execRxClr_frame h]
  | extSeg total current d => rw [execExtSeg_frame h]
  | rdReg r => rw [execRdReg_frame h]
  | rdBuf sel idx => rw [execRdBuf_frame h]
  | evRxb a => rw [execEvRxb_frame h]
  | evTick => rw [execEvTick_frame h]
  | evEdge pin level => rw [execEvEdge_frame h]
  | evReset => cases h; rfl

/-- Settles O54: the three things a step can do, each of which keeps the parameters. -/
theorem parametersAreNeverWritten : Obligations.ParametersAreNeverWritten := by
  intro s t h
  rcases step_next h with ⟨_, rfl⟩ | ⟨i, rest, _, hexec⟩ | ⟨op, rest, _, rfl⟩
  · rfl
  · simpa using exec_params hexec
  · simp

/-- Without DEB no edge is received, whichever pin it names (R9, log entry 11). -/
theorem execEvEdge_of_debAbsent {s : State} (h : s.params.debPresent = false) (pin : Byte) (level : Bool) :
    execEvEdge pin level s = .refused .debAbsent := by
  unfold execEvEdge; rw [if_pos h]

/-- Without DEB its timer is never due (R152). -/
theorem debDue_of_debAbsent {s : State} (h : s.params.debPresent = false) : debDue s = false := by
  simp [debDue, h]

/-- Without DEB the registers from 0x12 up are reserved (R231). -/
theorem register_of_debAbsent {s : State} (h : s.params.debPresent = false) {r : Byte} (hr : 0x12 ≤ r.toNat) :
    register s r = none := by
  unfold register; rw [if_pos (.inr ⟨h, hr⟩)]

/-- A read of a register that does not exist (R231). -/
theorem execRdReg_of_none {s : State} {r : Byte} (h : register s r = none) :
    execRdReg r s = .next (setStatus .badReg s) := by
  unfold execRdReg; rw [h]; rfl

/-- Latching a result emits no button event (R156). -/
theorem button_notMem_latchOutputs (code : ResCode) (p : Nat) (b : Bool) : .button p b ∉ latchOutputs code := by
  unfold latchOutputs; split <;> simp

/-- Without DEB a tick is its receive half: it counts, and closes the window or not (R9, R152). -/
theorem execEvTick_next_of_debAbsent {s t : State} (hd : s.params.debPresent = false) (h : execEvTick s = .next t) :
    t = countTick s ∨ ∃ w r, t = emptyWindow (latch w r (countTick s)) := by
  obtain ⟨b, hb, hdeb⟩ := execEvTick_next h
  have hrecv : b = countTick s ∨ ∃ w r, b = emptyWindow (latch w r (countTick s)) := by
    rcases hb with ⟨_, rfl⟩ | ⟨_, w, _, rfl⟩
    · exact .inl rfl
    · exact .inr ⟨w, _, rfl⟩
  have hparams : b.params = s.params := by rcases hrecv with rfl | ⟨w, r, rfl⟩ <;> simp
  rcases hdeb with ⟨_, rfl⟩ | ⟨hdue, _⟩
  · exact hrecv
  · rw [debDue_of_debAbsent (hparams ▸ hd)] at hdue; cases hdue

/-- Settles O43: edges by their guard, ticks by their receive half, which writes no field of DEB, registers by `REG`'s guard. -/
theorem withoutDebNothingOfItActs : Obligations.WithoutDebNothingOfItActs := by
  intro s hd
  refine ⟨fun pin level => execEvEdge_of_debAbsent hd pin level, fun t ht => ?tick, fun r hlo _ => ?register⟩
  case tick =>
    rcases execEvTick_next_of_debAbsent hd ht with rfl | ⟨w, r, rfl⟩
    · exact ⟨rfl, rfl, rfl, rfl, rfl, [], by simp, by simp⟩
    · exact ⟨rfl, rfl, rfl, rfl, rfl, latchOutputs r.1, by simp, button_notMem_latchOutputs r.1⟩
  case register => exact execRdReg_of_none (register_of_debAbsent hd hlo)

end Sys2Proof.Machine

/-! ### Records: what a step runs (spec/10_state.md R21, spec/30_encoding.md R81 to R86) -/

namespace Sys2Proof

/-- A well-formed record's bytes decode to it and leave the bytes after them (R81, R86). -/
theorem decode_encode {i : Instr} (h : i.wf = true) (rest : List Byte) : decode (encode i ++ rest) = .instr i rest := by
  cases i with
  | crcBlk d => exact decodeFB_encodeBlock .crcBlk rest h
  | decShort d => exact decodeFB_encodeBlock .decShort rest h
  | encShort id ty d => exact decodeFS_encodeBlock .encShort id ty rest h
  | encExt id ty d => exact decodeFS_encodeBlock .encExt id ty rest h
  | extSeg total current d => exact decodeFS_encodeBlock .extSeg total current rest h
  | rdBuf sel idx =>
    show Decoded.instr (.rdBuf sel (u16le _ _)) rest = _
    rw [u16le_bytes]
  | evEdge pin level => cases level <;> rfl
  | _ => rfl

end Sys2Proof

namespace Sys2Proof.Machine

/-- A step runs the record that the decoder reads, past its last byte (R21). -/
theorem step_of_decode {s : State} {i : Instr} {rest : List Byte} (h : decode s.stream = .instr i rest) :
    step s = exec i (advance rest s) := by
  unfold step fetch
  cases hs : s.stream with
  | nil => rw [hs] at h; cases h
  | cons b bs => rw [hs] at h; simp only [h]

theorem step_of_idle {s : State} (h : s.stream = []) : step s = .next s := by
  unfold step fetch
  rw [h]; rfl

/-- Settles O4: what the fetch answers for a decoded record, and for no record. -/
theorem stepRunsTheDecodedRecord : Obligations.StepRunsTheDecodedRecord :=
  ⟨fun _ _ _ => step_of_decode, fun _ => step_of_idle⟩

/-! ### What a record may write (spec/00_scope.md R12: every element a rule does not name keeps its value) -/

/-- `s` with the fields that the record may write taken from `t`. -/
def withWritesOf (i : Instr) (s t : State) : State :=
  match i with
  | .crcClr | .crcByte _ | .crcBlk _ => { s with crc := t.crc, cmdStatus := t.cmdStatus }
  | .encShort _ _ _ | .encExt _ _ _ | .encExta _ _ | .encAck =>
    { s with txBuf := t.txBuf, txLen := t.txLen, txKind := t.txKind, cmdStatus := t.cmdStatus, outputs := t.outputs }
  | .encNack =>
    { s with txBuf := t.txBuf, txLen := t.txLen, txKind := t.txKind, nackReq := false, cmdStatus := t.cmdStatus,
             outputs := t.outputs }
  | .decShort _ =>
    { s with resValid := t.resValid, resCode := t.resCode, resLost := t.resLost, nackReq := t.nackReq, resId := t.resId,
             resType := t.resType, resLen := t.resLen, resCrcRx := t.resCrcRx, resCrcCalc := t.resCrcCalc, resN := t.resN,
             resPayload := t.resPayload, cmdStatus := t.cmdStatus, outputs := t.outputs }
  | .rxClr => { s with resValid := false, resLost := false, cmdStatus := t.cmdStatus }
  | .extSeg _ _ _ =>
    { s with extBuf := t.extBuf, extAsm := t.extAsm, extDone := t.extDone, extTotal := t.extTotal, extNext := t.extNext,
             extLen := t.extLen, cmdStatus := t.cmdStatus, outputs := t.outputs }
  | .rdReg _ | .rdBuf _ _ => { s with cmdStatus := t.cmdStatus, outputs := t.outputs }
  | .evRxb _ => { s with rxWin := t.rxWin, rxCnt := t.rxCnt, rxOvf := t.rxOvf, rxLast := t.rxLast }
  | .evTick =>
    { s with now := s.now + 1#32, rxCnt := t.rxCnt, rxOvf := t.rxOvf, resValid := t.resValid, resCode := t.resCode,
             resLost := t.resLost, nackReq := t.nackReq, resId := t.resId, resType := t.resType, resLen := t.resLen,
             resCrcRx := t.resCrcRx, resCrcCalc := t.resCrcCalc, resN := t.resN, resPayload := t.resPayload,
             debPend := t.debPend, debRun := t.debRun, outputs := t.outputs }
  | .evEdge _ _ =>
    { s with debLevel := t.debLevel, debPend := t.debPend, debRun := t.debRun, debStart := t.debStart, pinPhys := t.pinPhys }
  | .evReset => { t with params := s.params, stream := s.stream, outputs := s.outputs }

/-- The frames of all the meanings together: a record changes only the fields it may write. -/
theorem exec_frame {i : Instr} {s t : State} (h : exec i s = .next t) : t = withWritesOf i s t := by
  cases i with
  | crcClr => exact execCrcClr_frame h
  | crcByte a => exact execCrcByte_frame h
  | crcBlk d => exact execCrcBlk_frame h
  | encShort id ty d => exact execEncShort_frame h
  | encExt id ty d => exact execEncExt_frame h
  | encExta id ty => exact execEncExta_frame h
  | encAck => exact execEncAck_frame h
  | encNack => exact execEncNack_frame h
  | decShort d => exact execDecShort_frame h
  | rxClr => exact execRxClr_frame h
  | extSeg total current d => exact execExtSeg_frame h
  | rdReg r => exact execRdReg_frame h
  | rdBuf sel idx => exact execRdBuf_frame h
  | evRxb a => exact execEvRxb_frame h
  | evTick => exact execEvTick_frame h
  | evEdge pin level => exact execEvEdge_frame h
  | evReset => cases h; rfl

/-- No meaning moves the position in the stream: the fetch alone does (R21). -/
theorem exec_stream {i : Instr} {s t : State} (h : exec i s = .next t) : t.stream = s.stream := by
  rw [exec_frame h]; cases i <;> rfl

/-- Settles O39: `EXT.SEG` and `EV.RESET` are the only records whose frame lets the assembler's fields go. -/
theorem assemblerWrittenOnlyByExtSeg : Obligations.AssemblerWrittenOnlyByExtSeg := by
  intro i s t h hseg hreset
  rw [exec_frame h]
  cases i with
  | extSeg total current d => exact absurd rfl (hseg total current d)
  | evReset => exact absurd rfl hreset
  | _ => exact ⟨rfl, rfl, rfl, rfl, rfl, rfl⟩

/-- Settles O57: `EV.TICK` and `EV.RESET` are the only records whose frame names `now`. -/
theorem onlyTicksAdvanceNow : Obligations.OnlyTicksAdvanceNow := by
  intro i s t h
  rw [exec_frame h]
  cases i with
  | evTick => exact ⟨fun _ => rfl, fun hne _ => absurd rfl hne⟩
  | evReset => exact ⟨nofun, fun _ hne => absurd rfl hne⟩
  | _ => exact ⟨nofun, fun _ _ => rfl⟩

/-- Settles O58: a tick's frame names the pending bits and the timer's running, and of the other records only `EV.EDGE`'s and
`EV.RESET`'s name a field of DEB. -/
theorem debounceWrittenOnlyByEdgesAndTicks : Obligations.DebounceWrittenOnlyByEdgesAndTicks := by
  intro i s t h hedge hreset
  rw [exec_frame h]
  cases i with
  | evEdge pin level => exact absurd rfl (hedge pin level)
  | evReset => exact absurd rfl hreset
  | evTick => exact ⟨rfl, rfl, rfl, fun hne => absurd rfl hne⟩
  | _ => exact ⟨rfl, rfl, rfl, fun _ => ⟨rfl, rfl⟩⟩

/-! ### The latched result's flags (spec/10_state.md R29, R30) -/

/-- `t`'s flags are those of a result latched over `s` (spec/43_decoder.md R156). -/
structure LatchedOver (s t : State) : Prop where
  valid : t.resValid = true
  lost : t.resLost = (s.resLost || s.resValid)
  nack : t.nackReq = (s.nackReq || decide (t.resCode = .crcErr))

theorem execDecShort_latchedOver {d : List Byte} {s t : State} (h : execDecShort d s = .next t) : LatchedOver s t := by
  rw [execDecShort_next h]; exact ⟨rfl, rfl, rfl⟩

/-- The debounce half of a tick leaves the result's flags: a tick latches a result or keeps them. -/
theorem execEvTick_latchedOver {s t : State} (h : execEvTick s = .next t) :
    LatchedOver s t ∨ (t.resLost = s.resLost ∧ t.nackReq = s.nackReq) := by
  obtain ⟨b, hreceive, hdebounce⟩ := execEvTick_next h
  have hflags : ∃ p r o, t = { b with debPend := p, debRun := r, outputs := o } := by
    rcases hdebounce with ⟨_, rfl⟩ | ⟨_, rfl⟩
    · exact ⟨t.debPend, t.debRun, t.outputs, rfl⟩
    · obtain ⟨pend, heq, _⟩ := debFire_eq b
      exact ⟨_, _, _, heq⟩
  obtain ⟨_, _, _, rfl⟩ := hflags
  rcases hreceive with ⟨_, rfl⟩ | ⟨_, w, _, rfl⟩
  · exact .inr ⟨rfl, rfl⟩
  · exact .inl ⟨rfl, rfl, rfl⟩

/-- What a record does to `nack_req` and `res_lost`: it latches a result, or else keeps or clears each of them (R29, R30). -/
theorem exec_resultFlags {i : Instr} {s t : State} (h : exec i s = .next t) :
    (LatchedOver s t ∧ ((∃ d, i = .decShort d) ∨ i = .evTick)) ∨
    ((t.nackReq = s.nackReq ∨ (t.nackReq = false ∧ (i = .encNack ∨ i = .evReset))) ∧
      (t.resLost = s.resLost ∨ (t.resLost = false ∧ (i = .rxClr ∨ i = .evReset)))) := by
  cases i with
  | decShort d => exact .inl ⟨execDecShort_latchedOver h, .inl ⟨d, rfl⟩⟩
  | evTick =>
    rcases execEvTick_latchedOver h with hl | ⟨hlost, hnack⟩
    · exact .inl ⟨hl, .inr rfl⟩
    · exact .inr ⟨.inl hnack, .inl hlost⟩
  | encNack => rw [exec_frame h]; exact .inr ⟨.inr ⟨rfl, .inl rfl⟩, .inl rfl⟩
  | rxClr => rw [exec_frame h]; exact .inr ⟨.inl rfl, .inr ⟨rfl, .inl rfl⟩⟩
  | evReset => cases h; exact .inr ⟨.inr ⟨rfl, .inr rfl⟩, .inr ⟨rfl, .inr rfl⟩⟩
  | _ => rw [exec_frame h]; exact .inr ⟨.inl rfl, .inl rfl⟩

/-- Settles O34: only the latch can set `nack_req`, and only with `CRC_ERR`; the latch never clears it. -/
theorem nackRequestFollowsChecksumMismatch : Obligations.NackRequestFollowsChecksumMismatch := by
  intro i s t h
  rcases exec_resultFlags h with ⟨hl, hi⟩ | ⟨hkeep | ⟨hoff, hi⟩, _⟩
  · refine ⟨fun hs ht => ⟨?set, hi⟩, fun hs ht => ?clear⟩
    case set => simpa [hl.nack, hs] using ht
    case clear => simp [hl.nack, hs] at ht
  · simp +contextual [hkeep]
  · exact ⟨fun _ ht => absurd (hoff ▸ ht) Bool.false_ne_true, fun _ _ => hi⟩

/-- Settles O35: only the latch can set `res_lost`, and only over a result that was valid; the latch never clears it. -/
theorem lostResultIsSticky : Obligations.LostResultIsSticky := by
  intro i s t h
  rcases exec_resultFlags h with ⟨hl, hi⟩ | ⟨_, hkeep | ⟨hoff, hi⟩⟩
  · refine ⟨fun hs ht => ⟨?set, hl.valid, hi⟩, fun hs ht => ?clear⟩
    case set => simpa [hl.lost, hs] using ht
    case clear => simp [hl.lost, hs] at ht
  · simp +contextual [hkeep]
  · exact ⟨fun _ ht => absurd (hoff ▸ ht) Bool.false_ne_true, fun _ _ => hi⟩

/-! ### The position in the stream and the accumulator are read by no other unit (spec/10_state.md R21, R23, spec/41_crc.md R116) -/

/-- `f` applied to the next state; a fault or a refusal stands. -/
def mapNext (f : State → State) (r : Result) : Result := andThen r fun t => .next (f t)

@[simp] theorem mapNext_next (f : State → State) (t : State) : mapNext f (.next t) = .next (f t) := rfl

theorem mapNext_ite (f : State → State) (c : Prop) [Decidable c] (r q : Result) :
    mapNext f (if c then r else q) = if c then mapNext f r else mapNext f q := apply_ite _ _ _ _

theorem mapNext_congr {f g : State → State} {r : Result} (h : ∀ t, r = .next t → f t = g t) : mapNext f r = mapNext g r := by
  cases r with
  | next t => exact congrArg _ (h t rfl)
  | fault e => rfl
  | refused e => rfl

theorem andThen_mapNext (f : State → State) (r : Result) (k : State → Result) :
    andThen (mapNext f r) k = andThen r fun t => k (f t) := by cases r <;> rfl

/-- A change of the state passes a sequence whose second half it passes. -/
theorem mapNext_andThen {f : State → State} {k : State → Result} (h : ∀ t, k (f t) = mapNext f (k t)) (r : Result) :
    andThen (mapNext f r) k = mapNext f (andThen r k) := by
  cases r with
  | next t => exact h t
  | fault e => rfl
  | refused e => rfl

/-- Another position in the stream and another accumulator. -/
def rebase (rest : List Byte) (c : Half) (s : State) : State := { s with stream := rest, crc := c }

section
variable (rest : List Byte) (c : Half) (s : State)

theorem confirmPin_rebase (p : Nat) : confirmPin (rebase rest c s) p = rebase rest c (confirmPin s p) := by
  unfold confirmPin
  rw [apply_ite (rebase rest c)]; rfl

theorem debFire_rebase : debFire (rebase rest c s) = rebase rest c (debFire s) :=
  congrArg timerStop (List.foldl_hom (rebase rest c) (fun t p => confirmPin_rebase rest c t p))

theorem bounceEdge_rebase (p : Nat) : bounceEdge p (rebase rest c s) = rebase rest c (bounceEdge p s) := by
  unfold bounceEdge
  rw [apply_ite (rebase rest c)]; rfl

theorem startAssembly_rebase (total current : Byte) :
    startAssembly total current (rebase rest c s) = rebase rest c (startAssembly total current s) := by
  unfold startAssembly
  rw [apply_ite (rebase rest c)]; rfl

theorem advanceAssembly_rebase (total current : Byte) :
    advanceAssembly total current (rebase rest c s) = rebase rest c (advanceAssembly total current s) := by
  unfold advanceAssembly
  rw [apply_ite (rebase rest c)]; rfl

theorem appendSegment_rebase (d : List Byte) :
    appendSegment d (rebase rest c s) = rebase rest c (appendSegment d s) := rfl

theorem closeWindow_rebase : closeWindow (rebase rest c s) = mapNext (rebase rest c) (closeWindow s) := by
  show (match s.rxWin.readBytes 0 s.rxCnt with | none => _ | some w => _) = _
  unfold closeWindow
  cases s.rxWin.readBytes 0 s.rxCnt <;> rfl

theorem execEncExta_rebase (id ty : Byte) :
    execEncExta id ty (rebase rest c s) = mapNext (rebase rest c) (execEncExta id ty s) := by
  unfold execEncExta
  rw [mapNext_ite]
  show (if s.extDone = false then _ else _) = _
  congr 1
  show (match s.extBuf.readBytes 0 s.extLen with | none => _ | some w => _) = _
  cases s.extBuf.readBytes 0 s.extLen <;> rfl

theorem execExtSeg_rebase (total current : Byte) (d : List Byte) :
    execExtSeg total current d (rebase rest c s) = mapNext (rebase rest c) (execExtSeg total current d s) := by
  unfold execExtSeg
  simp only [mapNext_ite, startAssembly_rebase, appendSegment_rebase, advanceAssembly_rebase]
  rfl

theorem execRdBuf_rebase (sel : Byte) (idx : Half) :
    execRdBuf sel idx (rebase rest c s) = mapNext (rebase rest c) (execRdBuf sel idx s) := by
  have hbuf : bufferOf (rebase rest c s) sel = bufferOf s sel := rfl
  unfold execRdBuf
  rw [hbuf]
  cases bufferOf s sel with
  | none => rfl
  | some b =>
    obtain ⟨m, len⟩ := b
    dsimp only
    rw [mapNext_ite]
    cases m.read idx.toNat <;> rfl

theorem execEvTick_rebase : execEvTick (rebase rest c s) = mapNext (rebase rest c) (execEvTick s) := by
  have hreceive : tickReceive (countTick (rebase rest c s)) = mapNext (rebase rest c) (tickReceive (countTick s)) := by
    unfold tickReceive
    rw [mapNext_ite, ← closeWindow_rebase]; rfl
  have hdebounce : ∀ t, tickDebounce (rebase rest c t) = mapNext (rebase rest c) (tickDebounce t) := by
    intro t
    unfold tickDebounce
    rw [mapNext_ite, debFire_rebase]; rfl
  unfold execEvTick
  rw [hreceive, mapNext_andThen hdebounce]

theorem execEvEdge_rebase (pin : Byte) (level : Bool) :
    execEvEdge pin level (rebase rest c s) = mapNext (rebase rest c) (execEvEdge pin level s) := by
  unfold execEvEdge
  simp only [mapNext_ite, mapNext_next, ← bounceEdge_rebase]
  rfl

end

/-- The records that write the accumulator: the CRC unit's commands and reset (R23). -/
def writesCrc : Instr → Bool
  | .crcClr | .crcByte _ | .crcBlk _ | .evReset => true
  | _ => false

theorem exec_crc {i : Instr} {s t : State} (hi : writesCrc i = false) (h : exec i s = .next t) : t.crc = s.crc := by
  rw [exec_frame h]
  cases i with
  | crcClr | crcByte a | crcBlk d | evReset => cases hi
  | _ => rfl

/-- Of the records that do not write the accumulator, `RD.REG` alone reads it, and none reads the position in the stream: from
another accumulator and another position the others do the same (R116). -/
theorem exec_rebase {i : Instr} (hi : writesCrc i = false) (hr : ∀ r, i ≠ .rdReg r) (rest : List Byte) (c : Half) (s : State) :
    exec i (rebase rest c s) = mapNext (rebase rest c) (exec i s) := by
  cases i with
  | crcClr | crcByte a | crcBlk d | evReset => cases hi
  | rdReg r => exact absurd rfl (hr r)
  | encShort id ty d => simp only [exec, execEncShort, mapNext_ite]; rfl
  | encExt id ty d => simp only [exec, execEncExt, mapNext_ite]; rfl
  | encExta id ty => exact execEncExta_rebase rest c s id ty
  | extSeg total current d => exact execExtSeg_rebase rest c s total current d
  | rdBuf sel idx => exact execRdBuf_rebase rest c s sel idx
  | evRxb a => simp only [exec, execEvRxb, mapNext_ite]; rfl
  | evTick => exact execEvTick_rebase rest c s
  | evEdge pin level => exact execEvEdge_rebase rest c s pin level
  | encAck | encNack | decShort d | rxClr => rfl

/-- Settles O18: no other record's frame names `crc`, and from another accumulator the others do the same. -/
theorem accumulatorBelongsToTheCrcUnit : Obligations.AccumulatorBelongsToTheCrcUnit := by
  intro i s t hclr hbyte hblk hreset h
  have hi : writesCrc i = false := by
    cases i with
    | crcClr => exact absurd rfl hclr
    | crcByte a => exact absurd rfl (hbyte a)
    | crcBlk d => exact absurd rfl (hblk d)
    | evReset => exact absurd rfl hreset
    | _ => rfl
  refine ⟨exec_crc hi h, fun hr c => ?_⟩
  calc exec i { s with crc := c }
    _ = mapNext (rebase s.stream c) (exec i s) := exec_rebase hi hr s.stream c s
    _ = .next { t with crc := c } := by rw [h, mapNext_next, ← exec_stream h]; rfl

/-- No meaning reads the position in the stream (R21). -/
theorem exec_advance (i : Instr) (rest : List Byte) (s : State) :
    exec i (advance rest s) = mapNext (advance rest) (exec i s) := by
  have hother : writesCrc i = false → (∀ r, i ≠ .rdReg r) →
      exec i (advance rest s) = mapNext (advance rest) (exec i s) := by
    intro hi hr
    calc exec i (advance rest s)
      _ = mapNext (rebase rest s.crc) (exec i s) := exec_rebase hi hr rest s.crc s
      _ = mapNext (advance rest) (exec i s) := mapNext_congr fun t ht => by rw [← exec_crc hi ht]; rfl
  cases i with
  | crcClr | crcByte a | crcBlk d | evReset => rfl
  | rdReg r =>
    have hreg : register (advance rest s) r = register s r := rfl
    simp only [exec, execRdReg, hreg]
    cases register s r <;> rfl
  | _ => exact hother rfl nofun

/-! ### The stream machine and straight-line execution (spec/30_encoding.md R98) -/

theorem run_succ (M : Host.Core) (k : Nat) (s : M.State) :
    M.run (k + 1) s = match M.step s with
      | .next t => M.run k t
      | .fault f => .fault f
      | .refused r => .refused r := rfl

/-- The host's run of this machine, at the machine's own types. -/
def runSteps (k : Nat) (s : State) : Result := Sys2Proof.core.run k s

/-- A run of one step more, in the words that `execSeq` is written with. -/
theorem runSteps_succ (k : Nat) (s : State) : runSteps (k + 1) s = andThen (step s) (runSteps k) := by
  refine (run_succ Sys2Proof.core k s).trans ?_
  generalize h : Sys2Proof.core.step s = r
  rw [show step s = r from h]
  cases r <;> rfl

/-- The bytes of a record sequence run its records: each step runs the next record, whose meaning does not see what the stream still
holds. -/
theorem runSteps_encoded {is : List Instr} (rest : List Byte) (hwf : ∀ i ∈ is, i.wf = true) {s : State}
    (hs : s.stream = (is.map encode).flatten ++ rest) : runSteps is.length s = execSeq is (advance rest s) := by
  induction is generalizing s with
  | nil =>
    have hrest : advance rest s = s := by rw [← show s.stream = rest from hs]; rfl
    rw [hrest]; rfl
  | cons i is ih =>
    obtain ⟨hi, his⟩ := List.forall_mem_cons.1 hwf
    let ahead := (is.map encode).flatten ++ rest
    have hdecode : decode s.stream = .instr i ahead := by
      rw [hs, List.map_cons, List.flatten_cons, List.append_assoc]
      exact decode_encode hi ahead
    calc runSteps (is.length + 1) s
      _ = andThen (exec i (advance ahead s)) (runSteps is.length) := by rw [runSteps_succ, step_of_decode hdecode]
      _ = andThen (exec i s) fun t => runSteps is.length (advance ahead t) := by rw [exec_advance, andThen_mapNext]
      _ = andThen (exec i s) fun t => execSeq is (advance rest t) :=
        congrArg (andThen (exec i s)) (funext fun t => ih his (s := advance ahead t) rfl)
      _ = execSeq (i :: is) (advance rest s) := by rw [execSeq_cons, exec_advance, andThen_mapNext]

/-- Settles O5, by induction on the records. -/
theorem encodedStreamRunsItsRecordsInOrder : Obligations.EncodedStreamRunsItsRecordsInOrder :=
  fun _ rest _ hwf hs => runSteps_encoded rest hwf hs

/-! ### Codes and reset (spec/10_state.md R22, R41, spec/60_exceptions.md R251, R252) -/

/-- Settles O45: the three code tables, entry by entry. -/
theorem codesHaveTheirNumbers : Obligations.CodesHaveTheirNumbers := ⟨by decide, by decide, by decide⟩

/-- Settles O49: reset writes out `State.resetWith` and puts the position and the outputs back. -/
theorem resetRestoresEveryElement : Obligations.ResetRestoresEveryElement := fun _ => ⟨rfl, rfl⟩

/-- At reset every buffer is empty, no flag is set and no timer runs; the levels keep to their pins because `P_DEB_INIT_LEVEL` does
(R7, R41). -/
theorem resetWith_inv {p : Params} (h : p.wf) : (State.resetWith p).Inv := by
  obtain ⟨_, _, _, _, _, _, _, hlevel⟩ := id h
  exact {
    paramsWf := h
    rxWinWf := .nil
    resPayloadWf := .nil
    txBufWf := .nil
    extBufWf := .nil
    rxWinSize := nofun
    resPayloadSize := nofun
    txBufSize := nofun
    extBufSize := nofun
    rxWinValued := nofun
    resPayloadValued := nofun
    txBufValued := nofun
    extBufValued := nofun
    rxCntLe := Nat.zero_le _
    rxOvfFull := nofun
    txLenLe := Nat.zero_le _
    txLenKind := iff_of_true rfl rfl
    extLenLe := Nat.zero_le _
    extNextRange := nofun
    extNotBoth := nofun
    frameOkLen := nofun
    noneInvalid := fun _ => rfl
    pendLevel := fun _ _ _ => rfl
    pendRuns := fun hp => absurd rfl hp
    debLevelPins := pinsBelow_of_toNat_lt hlevel
    debPendPins := pinsBelow_zero _
    pinPhysPins := pinsBelow_of_toNat_lt hlevel
    absentIdle := fun _ => rfl
    gapNotOverdue := nofun
    debNotOverdue := nofun }

/-- Settles O50: `State.reset` is the reset state of R7's defaults. -/
theorem resetMeetsTheInvariant : Obligations.ResetMeetsTheInvariant :=
  ⟨fun _ => resetWith_inv, resetWith_inv (by decide)⟩

/-! ### Every record keeps the invariant (spec/10_state.md R39) -/

theorem withCrc_inv {s : State} (h : s.Inv) (c : Half) : State.Inv { s with crc := c } := { h with }

theorem withNackReq_inv {s : State} (h : s.Inv) (b : Bool) : State.Inv { s with nackReq := b } := { h with }

/-- A consumed result is not valid, whatever its code (R39). -/
theorem consumed_inv {s : State} (h : s.Inv) : State.Inv { s with resValid := false, resLost := false } :=
  { h with noneInvalid := fun _ => rfl }

theorem buildShort_ne_nil (id ty : Byte) (p : List Byte) : buildShort id ty p ≠ [] := List.cons_ne_nil _ _

theorem buildExt_ne_nil (id ty : Byte) (p : List Byte) : buildExt id ty p ≠ [] := List.cons_ne_nil _ _

theorem execEncShort_inv {id ty : Byte} {d : List Byte} {s t : State} (hs : s.Inv) (h : execEncShort id ty d s = .next t) :
    t.Inv := by
  rcases execEncShort_next h with ⟨_, rfl⟩ | ⟨_, hroom, rfl⟩
  · exact setStatus_inv hs _
  · exact setStatus_inv (transmit_inv hs (kind := .short) nofun (buildShort_ne_nil id ty d) (by rwa [buildShort_length])) _

theorem execEncExt_inv {id ty : Byte} {d : List Byte} {s t : State} (hs : s.Inv) (h : execEncExt id ty d s = .next t) :
    t.Inv := by
  rcases execEncExt_next h with ⟨_, rfl⟩ | ⟨hlen, rfl⟩
  · exact setStatus_inv hs _
  · exact setStatus_inv (transmit_inv hs (kind := .ext) nofun (buildExt_ne_nil id ty _) (buildExt_fits id ty hlen)) _

/-- The assembled payload fits because `ext_len` does. -/
theorem execEncExta_inv {id ty : Byte} {s t : State} (hs : s.Inv) (h : execEncExta id ty s = .next t) : t.Inv := by
  rcases execEncExta_next h with ⟨_, rfl⟩ | ⟨_, p, ⟨hlen, _⟩, rfl⟩
  · exact setStatus_inv hs _
  · have hfits : p.length ≤ s.params.maxExt := hlen ▸ hs.extLenLe
    exact setStatus_inv (transmit_inv hs (kind := .ext) nofun (buildExt_ne_nil id ty _) (buildExt_fits id ty hfits)) _

theorem execRdReg_inv {r : Byte} {s t : State} (hs : s.Inv) (h : execRdReg r s = .next t) : t.Inv := by
  rcases execRdReg_next h with ⟨_, rfl⟩ | ⟨_, _, rfl⟩
  · exact setStatus_inv hs _
  · exact setStatus_inv (emit_inv hs _) _

theorem execRdBuf_inv {sel : Byte} {idx : Half} {s t : State} (hs : s.Inv) (h : execRdBuf sel idx s = .next t) : t.Inv := by
  rcases execRdBuf_next h with ⟨_, rfl⟩ | ⟨_, _, _, _, rfl⟩ | ⟨_, _, _, _, _, _, rfl⟩
  · exact setStatus_inv hs _
  · exact setStatus_inv hs _
  · exact setStatus_inv (emit_inv hs _) _

theorem execDecShort_inv {d : List Byte} {s t : State} (hs : s.Inv) (h : execDecShort d s = .next t) : t.Inv := by
  rw [execDecShort_next h]
  refine setStatus_inv (latch_inv hs ?_ decodeShort_frameOk) _
  rcases decodeShort_code s.params d with hc | hc | hc <;> simp [hc]

/-! #### The assembler (spec/44_ext_assembler.md R181) -/

/-- The assembly in progress is left behind: what a segment finds once it has been accepted. -/
def leaveAssembly (s : State) : State := { s with extAsm := false }

theorem advanceAssembly_leaveAssembly (total current : Byte) (s : State) :
    advanceAssembly total current (leaveAssembly s) = advanceAssembly total current s := by
  unfold advanceAssembly
  split <;> rfl

theorem startAssembly_params (total current : Byte) (s : State) : (startAssembly total current s).params = s.params := by
  unfold startAssembly
  split <;> rfl

/-- An accepted segment, the first or not, finds its own total and no completed payload: an assembly in progress excludes one. -/
theorem startAssembly_accepted {total current : Byte} {s : State} (hs : s.Inv) (h : badSequence total current s = false) :
    (startAssembly total current s).extTotal = total ∧ (startAssembly total current s).extDone = false := by
  unfold startAssembly
  split
  · exact ⟨rfl, rfl⟩
  · rename_i hlater
    rcases badSequence_eq_false.1 h with hfirst | ⟨hasm, _, htotal⟩
    · exact absurd hfirst hlater
    · exact ⟨htotal.symm, Bool.eq_false_of_not_eq_true fun hdone => hs.extNotBoth ⟨hasm, hdone⟩⟩

/-- A restarted payload has length 0, and a segment that does not restart changes nothing. -/
theorem startAssembly_inv {s : State} (hs : s.Inv) (total current : Byte) :
    (leaveAssembly (startAssembly total current s)).Inv := by
  unfold startAssembly
  split
  · exact { hs with extBufValued := nofun, extLenLe := Nat.zero_le _, extNextRange := nofun, extNotBoth := nofun }
  · exact { hs with extNextRange := nofun, extNotBoth := nofun }

theorem appendSegment_inv {d : List Byte} {s : State} (hs : s.Inv) (hfits : s.extLen + d.length ≤ s.params.maxExt) :
    (appendSegment d s).Inv :=
  { hs with
    extBufWf := Memory.writeBytes_wf hs.extBufWf _ _
    extBufSize := Memory.writeBytes_withinSize hs.extBufSize hfits
    extBufValued := valuedBelow_append hs.extBufValued d
    extLenLe := hfits }

/-- The last segment leaves no assembly; any other waits for a number that is at most the total. -/
theorem advanceAssembly_inv {total current : Byte} {s : State} (hs : s.Inv) (hlo : 1 ≤ current.toNat)
    (hhi : current.toNat ≤ total.toNat) (htotal : s.extTotal = total) (hdone : s.extDone = false) :
    (advanceAssembly total current s).Inv := by
  unfold advanceAssembly
  split
  · refine emit_inv ?_ _
    exact { hs with extNextRange := nofun, extNotBoth := nofun }
  · rename_i hne
    have hlt : current.toNat < total.toNat := Nat.lt_of_le_of_ne hhi fun he => hne (BitVec.eq_of_toNat_eq he)
    exact { hs with
      extNextRange := fun _ => ⟨Nat.succ_le_succ hlo, htotal ▸ hlt⟩
      extNotBoth := fun hboth => absurd (hdone.symm.trans hboth.2) Bool.false_ne_true }

theorem execExtSeg_inv {total current : Byte} {d : List Byte} {s t : State} (hs : s.Inv)
    (h : execExtSeg total current d s = .next t) : t.Inv := by
  rcases execExtSeg_next h with ⟨_, rfl⟩ | ⟨_, _, rfl⟩ | ⟨_, _, _, rfl⟩ | ⟨hheader, hseq, hfits, rfl⟩
  · exact setStatus_inv (extAbort_inv hs) _
  · exact setStatus_inv (extAbort_inv hs) _
  · rw [extAbort_startAssembly]
    exact setStatus_inv (extAbort_inv hs) _
  · obtain ⟨hlo, hhi⟩ := badHeader_eq_false.1 hheader
    obtain ⟨htotal, hdone⟩ := startAssembly_accepted hs hseq
    rw [← startAssembly_params total current s] at hfits
    have happended := appendSegment_inv (d := d) (startAssembly_inv hs total current) hfits
    rw [← advanceAssembly_leaveAssembly]
    exact setStatus_inv (advanceAssembly_inv happended hlo hhi htotal hdone) _

/-! #### The receive window (spec/43_decoder.md R151) -/

@[simp] theorem elapsed_now (s : State) : elapsed s s.now = 0 := by simp [elapsed]

theorem State.Inv.tGap_pos {s : State} (hs : s.Inv) : 0 < s.params.tGap := by
  obtain ⟨_, _, _, ⟨hpos, _⟩, _⟩ := hs.paramsWf; exact hpos

theorem State.Inv.tDeb_pos {s : State} (hs : s.Inv) : 0 < s.params.tDeb := by
  obtain ⟨_, _, _, _, ⟨hpos, _⟩, _⟩ := hs.paramsWf; exact hpos

theorem appendByte_inv {a : Byte} {s : State} (hs : s.Inv) (hroom : s.rxCnt < s.params.rxCap) : (appendByte a s).Inv :=
  { hs with
    rxWinWf := Memory.write_wf hs.rxWinWf _ _
    rxWinSize := Memory.write_withinSize hs.rxWinSize hroom _
    rxWinValued := valuedBelow_write hs.rxWinValued a
    rxCntLe := hroom
    rxOvfFull := fun hovf => absurd (hs.rxOvfFull hovf) (Nat.ne_of_lt hroom)
    gapNotOverdue := fun _ => (elapsed_now s).symm ▸ hs.tGap_pos }

theorem dropByte_inv {s : State} (hs : s.Inv) (hfull : s.params.rxCap ≤ s.rxCnt) : (dropByte s).Inv :=
  { hs with
    rxOvfFull := fun _ => Nat.le_antisymm hs.rxCntLe hfull
    gapNotOverdue := fun _ => (elapsed_now s).symm ▸ hs.tGap_pos }

theorem execEvRxb_inv {a : Byte} {s t : State} (hs : s.Inv) (h : execEvRxb a s = .next t) : t.Inv := by
  rcases execEvRxb_next h with ⟨hroom, rfl⟩ | ⟨hfull, rfl⟩
  · exact appendByte_inv hs hroom
  · exact dropByte_inv hs hfull

theorem emptyWindow_inv {s : State} (hs : s.Inv) : (emptyWindow s).Inv :=
  { hs with rxWinValued := nofun, rxCntLe := Nat.zero_le _, rxOvfFull := nofun, gapNotOverdue := nofun }

theorem latch_classify_inv {s : State} (hs : s.Inv) (w : List Byte) (ovf : Bool) :
    (latch w (classify s.params w ovf) s).Inv :=
  latch_inv hs (classify_ne_none _ _ _) fun hok => decodeShort_frameOk (classify_frameOk hok ▸ hok)

/-! #### Edges (spec/45_debounce.md R201, R202) -/

theorem timerRestart_inv {s : State} (hs : s.Inv) (hdeb : s.params.debPresent = true) : (timerRestart s).Inv :=
  { hs with
    pendRuns := fun _ => rfl
    absentIdle := fun habsent => absurd (hdeb.symm.trans habsent) nofun
    debNotOverdue := fun _ => (elapsed_now s).symm ▸ hs.tDeb_pos }

theorem pinBit_setPin_same (v : Word) {p : Nat} (h : p < 32) (b : Bool) : pinBit (setPin v p b) p = b := by
  rw [pinBit_setPin, if_pos ⟨rfl, h⟩]

theorem pinBit_setPin_other (v : Word) {p q : Nat} (h : q ≠ p) (b : Bool) : pinBit (setPin v p b) q = pinBit v q := by
  rw [pinBit_setPin, if_neg fun hqp => h hqp.1]

/-- A bounced pin is pending no more, so that its level is free; the other pins keep theirs. -/
theorem bounced_inv {s : State} (hs : s.Inv) {p : Nat} (hp : p < s.params.nPins) (level : Bool)
    (hpend : pinBit s.debPend p = true) : (clearPend p (setPhys p level s)).Inv :=
  { hs with
    pendLevel := fun q hq => by
      simp only [clearPend_debPend, clearPend_debLevel, clearPend_pinPhys, setPhys_debPend, setPhys_debLevel, setPhys_pinPhys]
      by_cases hqp : q = p
      · subst hqp
        rw [pinBit_setPin_same _ hq]; exact nofun
      · rw [pinBit_setPin_other _ hqp, pinBit_setPin_other _ hqp]
        exact hs.pendLevel q hq
    pendRuns := fun _ => hs.pendRuns fun hz => by simp [hz, pinBit] at hpend
    debPendPins := pinsBelow_setPin hs.debPendPins hp false
    pinPhysPins := pinsBelow_setPin hs.pinPhysPins hp level }

/-- A captured pin's level is the level it was captured at, with the timer running. -/
theorem captured_inv {s : State} (hs : s.Inv) {p : Nat} (hp : p < s.params.nPins) (level : Bool) (hrun : s.debRun = true) :
    (capturePin p level (setPhys p level s)).Inv :=
  { hs with
    pendLevel := fun q hq => by
      simp only [capturePin_debPend, capturePin_debLevel, capturePin_pinPhys, setPhys_debPend, setPhys_debLevel, setPhys_pinPhys]
      by_cases hqp : q = p
      · subst hqp
        simp only [pinBit_setPin_same _ hq, implies_true]
      · rw [pinBit_setPin_other _ hqp, pinBit_setPin_other _ hqp, pinBit_setPin_other _ hqp]
        exact hs.pendLevel q hq
    pendRuns := fun _ => hrun
    debLevelPins := pinsBelow_setPin hs.debLevelPins hp level
    debPendPins := pinsBelow_setPin hs.debPendPins hp true
    pinPhysPins := pinsBelow_setPin hs.pinPhysPins hp level }

/-- The timer restarts before or after the pin's bits change: a capture is one on a state whose timer runs. -/
theorem captureEdge_setPhys (p : Nat) (level : Bool) (s : State) :
    captureEdge p level (setPhys p level s) = capturePin p level (setPhys p level (timerRestart s)) := rfl

theorem execEvEdge_inv {pin : Byte} {level : Bool} {s t : State} (hs : s.Inv) (h : execEvEdge pin level s = .next t) :
    t.Inv := by
  obtain ⟨hdeb, hpin, ⟨hpend, rfl⟩ | ⟨_, rfl⟩⟩ := execEvEdge_next h
  · have hbounced := bounced_inv hs hpin level hpend
    unfold bounceEdge
    split
    · exact timerRestart_inv hbounced hdeb
    · exact hbounced
  · rw [captureEdge_setPhys]
    exact captured_inv (timerRestart_inv hs hdeb) hpin level rfl

/-! #### Ticks (spec/43_decoder.md R152, R153, spec/45_debounce.md R203) -/

/-- A tick at which neither timer becomes overdue. -/
theorem countTick_inv {s : State} (hs : s.Inv) (hgap : 0 < s.rxCnt → elapsed (countTick s) s.rxLast < s.params.tGap)
    (hdeb : s.debRun = true → elapsed (countTick s) s.debStart < s.params.tDeb) : (countTick s).Inv :=
  { hs with gapNotOverdue := hgap, debNotOverdue := hdeb }

theorem gap_of_not_gapDue {s : State} (h : gapDue s = false) (hopen : 0 < s.rxCnt) : elapsed s s.rxLast < s.params.tGap := by
  simp only [gapDue, decide_eq_false_iff_not] at h
  omega

theorem deb_of_not_debDue {s : State} (h : debDue s = false) (habsent : s.params.debPresent = false → s.debRun = false)
    (hrun : s.debRun = true) : elapsed s s.debStart < s.params.tDeb := by
  have hpresent : s.params.debPresent = true := by
    cases hp : s.params.debPresent with
    | true => rfl
    | false => exact absurd (hrun.symm.trans (habsent hp)) nofun
  simpa [debDue, hpresent, hrun] using h

/-- No pin is pending after the expiry: the loop clears every pin that exists. -/
theorem debFire_eq_of_pinsBelow {s : State} (h : pinsBelow s.debPend s.params.nPins) :
    ∃ o, debFire s = { s with debPend := 0#32, debRun := false, outputs := o } := by
  obtain ⟨pend, heq, hbits⟩ := debFire_eq s
  have hzero : pend = 0#32 := eq_of_pinBit fun p hp => by
    rw [hbits, show pinBit 0#32 p = false from BitVec.getLsbD_zero]
    split
    · rfl
    · exact h p hp (by omega)
  exact ⟨_, hzero ▸ heq⟩

/-- With no pin pending and the timer stopped, DEB's clauses say nothing. -/
theorem expired_inv {s : State} (hs : s.Inv) (o : List Output) :
    State.Inv { s with debPend := 0#32, debRun := false, outputs := o } :=
  { hs with
    pendLevel := fun p _ hp => by simp [pinBit] at hp
    pendRuns := fun hz => absurd rfl hz
    debPendPins := pinsBelow_zero _
    absentIdle := fun _ => rfl
    debNotOverdue := nofun }

/-- No clause but the timers' reads `now`, so the tick is counted last: after the window was closed, or its gap found not over, and
after the debounce timer fired, or was found not due. -/
theorem execEvTick_inv {s t : State} (hs : s.Inv) (h : execEvTick s = .next t) : t.Inv := by
  obtain ⟨b, hreceive, hdebounce⟩ := execEvTick_next h
  obtain ⟨u, hu, rfl, hgap⟩ :
      ∃ u, u.Inv ∧ b = countTick u ∧ (0 < u.rxCnt → elapsed (countTick u) u.rxLast < u.params.tGap) := by
    rcases hreceive with ⟨hopen, rfl⟩ | ⟨_, w, _, rfl⟩
    · exact ⟨s, hs, rfl, gap_of_not_gapDue hopen⟩
    · have hclosed := emptyWindow_inv (latch_classify_inv hs w s.rxOvf)
      exact ⟨_, hclosed, rfl, nofun⟩
  rcases hdebounce with ⟨hidle, rfl⟩ | ⟨_, rfl⟩
  · exact countTick_inv hu hgap (deb_of_not_debDue hidle hu.absentIdle)
  · obtain ⟨o, heq⟩ := debFire_eq_of_pinsBelow (s := countTick u) hu.debPendPins
    rw [heq]
    exact countTick_inv (expired_inv hu o) hgap nofun

/-! #### All records -/

theorem exec_inv {i : Instr} {s t : State} (hs : s.Inv) (h : exec i s = .next t) : t.Inv := by
  cases i with
  | crcClr => cases h; exact setStatus_inv (withCrc_inv hs _) _
  | crcByte a => cases h; exact setStatus_inv (withCrc_inv hs _) _
  | crcBlk d => cases h; exact setStatus_inv (withCrc_inv hs _) _
  | encShort id ty d => exact execEncShort_inv hs h
  | encExt id ty d => exact execEncExt_inv hs h
  | encExta id ty => exact execEncExta_inv hs h
  | encAck =>
    cases h
    exact setStatus_inv (transmit_inv hs (kind := .ack) nofun (List.cons_ne_nil _ _) (markers_fit _).1) _
  | encNack =>
    cases h
    exact setStatus_inv
      (transmit_inv (withNackReq_inv hs false) (kind := .nack) nofun (List.cons_ne_nil _ _) (markers_fit _).2) _
  | decShort d => exact execDecShort_inv hs h
  | rxClr => cases h; exact setStatus_inv (consumed_inv hs) _
  | extSeg total current d => exact execExtSeg_inv hs h
  | rdReg r => exact execRdReg_inv hs h
  | rdBuf sel idx => exact execRdBuf_inv hs h
  | evRxb a => exact execEvRxb_inv hs h
  | evTick => exact execEvTick_inv hs h
  | evEdge pin level => exact execEvEdge_inv hs h
  | evReset => cases h; exact { resetWith_inv hs.paramsWf with }

/-- Settles O51: an idle step changes nothing, a record's meaning keeps the invariant, and a reserved command writes the status
alone. -/
theorem stepKeepsTheInvariant : Obligations.StepKeepsTheInvariant := by
  intro s t hs h
  rcases step_next h with ⟨_, rfl⟩ | ⟨i, rest, _, hexec⟩ | ⟨op, rest, _, rfl⟩
  · exact hs
  · exact exec_inv (advance_inv hs rest) hexec
  · exact setStatus_inv (advance_inv hs rest) _

end Sys2Proof.Machine

/-! ### No rule reads a byte that no rule has written (spec/20_memory.md R63) -/

namespace Sys2Proof.Machine

theorem ite_ne_fault {c : Prop} [Decidable c] {r q : Result} {f : Fault} (hr : r ≠ .fault f) (hq : q ≠ .fault f) :
    (if c then r else q) ≠ .fault f := by
  split
  · exact hr
  · exact hq

/-- A sequence faults only where one of its halves does. -/
theorem andThen_ne_fault {r : Result} {k : State → Result} {f : Fault} (hr : r ≠ .fault f)
    (hk : ∀ t, r = .next t → k t ≠ .fault f) : andThen r k ≠ .fault f := by
  cases r with
  | next t => exact hk t rfl
  | fault e => exact hr
  | refused e => nofun

/-- Whatever a selector lets `RD.BUF` read has been written: each buffer below its length element, and `res_payload` only of a
valid frame (R232). -/
theorem bufferOf_valued {s : State} (hs : s.Inv) {sel : Byte} {m : Memory} {n : Nat} (h : bufferOf s sel = some (m, n)) :
    valuedBelow m n := by
  unfold bufferOf at h
  split at h
  · cases h
    split
    · exact hs.resPayloadValued ‹_›
    · nofun
  · cases h; exact hs.txBufValued
  · cases h; exact hs.extBufValued
  · cases h; exact hs.rxWinValued
  · cases h

theorem execRdBuf_ne_fault {s : State} (hs : s.Inv) (sel : Byte) (idx : Half) (f : Fault) : execRdBuf sel idx s ≠ .fault f := by
  unfold execRdBuf
  split
  · nofun
  · rename_i m n hbuf
    split
    · rename_i hlt
      obtain ⟨b, hread⟩ := Option.isSome_iff_exists.1 (bufferOf_valued hs hbuf _ hlt)
      rw [hread]; nofun
    · nofun

theorem execEncExta_ne_fault {s : State} (hs : s.Inv) (id ty : Byte) (f : Fault) : execEncExta id ty s ≠ .fault f := by
  obtain ⟨p, hread⟩ := Memory.readBytes_isSome hs.extBufValued
  unfold execEncExta
  rw [hread]
  exact ite_ne_fault nofun nofun

/-- The window close reads the bytes below `rx_cnt` alone (R153). -/
theorem closeWindow_ne_fault {s : State} (h : valuedBelow s.rxWin s.rxCnt) (f : Fault) : closeWindow s ≠ .fault f := by
  obtain ⟨w, hw⟩ := holds_of_valuedBelow h
  rw [closeWindow_of_holds hw]; nofun

theorem execEvTick_ne_fault {s : State} (hs : s.Inv) (f : Fault) : execEvTick s ≠ .fault f :=
  have hreceive : tickReceive (countTick s) ≠ .fault f :=
    ite_ne_fault (closeWindow_ne_fault (s := countTick s) hs.rxWinValued f) nofun
  andThen_ne_fault hreceive fun _ _ => ite_ne_fault nofun nofun

/-- Three records read a buffer, and the invariant gives every byte they read a value; the others never fault. -/
theorem exec_ne_fault {s : State} (hs : s.Inv) (i : Instr) (f : Fault) : exec i s ≠ .fault f := by
  cases i with
  | encExta id ty => exact execEncExta_ne_fault hs id ty f
  | rdBuf sel idx => exact execRdBuf_ne_fault hs sel idx f
  | evTick => exact execEvTick_ne_fault hs f
  | encShort id ty d => exact ite_ne_fault nofun (ite_ne_fault nofun nofun)
  | encExt id ty d => exact ite_ne_fault nofun nofun
  | extSeg total current d => exact ite_ne_fault nofun (ite_ne_fault nofun (ite_ne_fault nofun nofun))
  | rdReg r =>
    show execRdReg r s ≠ .fault f
    unfold execRdReg
    split <;> nofun
  | evRxb a => exact ite_ne_fault nofun nofun
  | evEdge pin level => exact ite_ne_fault nofun (ite_ne_fault nofun (ite_ne_fault nofun nofun))
  | crcClr | crcByte a | crcBlk d | encAck | encNack | decShort d | rxClr | evReset => nofun

/-- Settles O52: only a decoded record's meaning can fault, and it runs at a state that meets the invariant too. -/
theorem invariantRulesOutFaults : Obligations.InvariantRulesOutFaults := by
  intro s f hs h
  obtain ⟨i, rest, _, hexec⟩ := step_fault h
  exact exec_ne_fault (advance_inv hs rest) i f hexec

/-- A run from a state that meets the invariant never faults: no step does, and each leads to such a state again. -/
theorem neverFaults_of_inv {s : State} (hs : s.Inv) : NeverFaults s := by
  intro k f
  show runSteps k s ≠ .fault f
  induction k generalizing s with
  | zero => nofun
  | succ k ih =>
    rw [runSteps_succ]
    exact andThen_ne_fault (invariantRulesOutFaults s f hs) fun t ht => ih (stepKeepsTheInvariant s t hs ht)

/-- Settles O53: the reset state meets the invariant, with whatever records are presented to it. -/
theorem runsFromResetNeverFault : Obligations.RunsFromResetNeverFault :=
  fun _ bytes hp => neverFaults_of_inv (advance_inv (resetWith_inv hp) bytes)

/-! ### The extended frame in the transmit buffer (spec/20_memory.md R65, spec/42_encoder.md R132, R134) -/

/-- A wire field's low byte is `n[7:0]` (R65). -/
theorem lowByte_len16 (n : Nat) : lowByte (len16 n) = BitVec.ofNat 8 n := by
  apply BitVec.eq_of_toNat_eq
  simp only [lowByte, len16, BitVec.extractLsb'_toNat, BitVec.toNat_ofNat, Nat.shiftRight_zero]
  omega

/-- A wire field's high byte is `n[15:8]` (R65). -/
theorem highByte_len16 (n : Nat) : highByte (len16 n) = BitVec.ofNat 8 (n / 256) := by
  apply BitVec.eq_of_toNat_eq
  simp only [highByte, len16, BitVec.extractLsb'_toNat, BitVec.toNat_ofNat, Nat.shiftRight_eq_div_pow]
  omega

/-- Where the parts of an extended frame stand in a buffer it is written to from index 0, and that the bytes past it stay (R132). -/
theorem read_writeBytes_buildExt (m : Memory) (id ty : Byte) (p : List Byte) :
    let w := m.writeBytes 0 (buildExt id ty p)
    w.read 0 = some id ∧ w.read 1 = some ty ∧
    w.read 2 = some (BitVec.ofNat 8 p.length) ∧ w.read 3 = some (BitVec.ofNat 8 (p.length / 256)) ∧
    (∀ k, k < p.length → w.read (4 + k) = p[k]?) ∧
    (∀ k, p.length + 4 ≤ k → w.read k = m.read k) := by
  intro w
  have hframe : ∀ k, k < p.length + 4 → w.read k = (buildExt id ty p)[k]? := by
    obtain ⟨_, hread⟩ := holds_writeBytes m (buildExt id ty p)
    rwa [buildExt_length] at hread
  refine ⟨hframe 0 (by omega), hframe 1 (by omega), ?lenLo, ?lenHi, fun k hk => ?payload, fun k hk => ?past⟩
  case lenLo => rw [hframe 2 (by omega), ← lowByte_len16]; rfl
  case lenHi => rw [hframe 3 (by omega), ← highByte_len16]; rfl
  case payload => rw [hframe (4 + k) (by omega), Nat.add_comm]; rfl
  case past => exact Memory.read_writeBytes_outside _ _ _ _ (.inr (by rw [buildExt_length]; omega))

/-- What announcing an extended frame and ending with `OK` changes (R130). -/
theorem transmit_buildExt (id ty : Byte) (p : List Byte) (s : State) :
    setStatus .ok (transmit .ext (buildExt id ty p) s) =
      { s with txBuf := s.txBuf.writeBytes 0 (buildExt id ty p), txLen := p.length + 4, txKind := .ext, cmdStatus := .ok,
               outputs := s.outputs ++ [.txReady .ext (BitVec.ofNat 16 (p.length + 4))] } := by
  rw [← buildExt_length id ty p]; rfl

theorem execEncExt_of_fits {id ty : Byte} {d : List Byte} {s : State} (h : d.length ≤ s.params.maxExt) :
    execEncExt id ty d s = .next (setStatus .ok (transmit .ext (buildExt id ty d) s)) := by
  unfold execEncExt; rw [if_neg (by omega)]; rfl

theorem execEncExt_of_tooLong {id ty : Byte} {d : List Byte} {s : State} (h : s.params.maxExt < d.length) :
    execEncExt id ty d s = .next (setStatus .encLen s) := by
  unfold execEncExt; rw [if_pos h]; rfl

/-- Settles O20: the test of the payload's length, and for a payload that fits the frame's parts in `tx_buf`. -/
theorem encExtBuildsTheFrame : Obligations.EncExtBuildsTheFrame := by
  intro id ty d s
  refine ⟨fun hfits => ?built, execEncExt_of_tooLong⟩
  exact ⟨_, execEncExt_of_fits hfits, transmit_buildExt id ty d s, read_writeBytes_buildExt s.txBuf id ty d⟩

end Sys2Proof.Machine

/-! ### What the decoder can answer (spec/30_encoding.md R81 to R89) -/

namespace Sys2Proof

/-- The command opcodes that R83 lists. -/
def commandOpcodes : List Nat := [0x01, 0x02, 0x03, 0x10, 0x11, 0x12, 0x13, 0x14, 0x20, 0x21, 0x30, 0x40, 0x41]

/-- The event opcodes that R84 lists. -/
def eventOpcodes : List Nat := [0x80, 0x81, 0x82, 0xFF]

/-- What the bytes at the head of the stream are read as, in the words of R81 to R89: a record's encoding, a proper beginning of one,
a reserved opcode, or an edge with an impossible level. `decode_eq_iff` ties it to the decoder. -/
inductive Reads : List Byte → Decoded → Prop where
  | record {bytes rest : List Byte} {i : Instr} (hwf : i.wf = true) (hbytes : bytes = encode i ++ rest) :
      Reads bytes (.instr i rest)
  | truncated {bytes missing : List Byte} {i : Instr} {next : Byte} (hwf : i.wf = true)
      (hbytes : encode i = bytes ++ next :: missing) : Reads bytes (.reject .truncated)
  | reservedCommand {op : Byte} {rest : List Byte} (hcommand : op.toNat < 0x80) (hop : op.toNat ∉ commandOpcodes) :
      Reads (op :: rest) (.reservedCommand op rest)
  | reservedEvent {op : Byte} {rest : List Byte} (hevent : 0x80 ≤ op.toNat) (hop : op.toNat ∉ eventOpcodes) :
      Reads (op :: rest) (.reject (.reservedEvent op))
  | edgeLevel {pin level : Byte} {rest : List Byte} (hlevel : 1 < level.toNat) :
      Reads (0x82#8 :: pin :: level :: rest) (.reject (.edgeLevel level))

/-! #### Each format -/

theorem reads_decodeF1 {op : Byte} {k : Byte → Instr} (henc : ∀ a, encode (k a) = [op, a]) (hwf : ∀ a, (k a).wf = true)
    (r : List Byte) : Reads (op :: r) (decodeF1 k r) := by
  cases r with
  | nil => exact .truncated (hwf 0) (henc 0)
  | cons a r => exact .record (hwf a) (by rw [henc]; rfl)

/-- Format F2: `hk` says what the two operands are read as, `hcut` that every first operand is some record's. -/
theorem reads_decodeF2 {op : Byte} {k : Byte → Byte → List Byte → Decoded}
    (hcut : ∀ a, ∃ i b, i.wf = true ∧ encode i = [op, a, b]) (hk : ∀ a b r, Reads (op :: a :: b :: r) (k a b r))
    (r : List Byte) : Reads (op :: r) (decodeF2 k r) := by
  match r with
  | [] => obtain ⟨i, b, hwf, henc⟩ := hcut 0; exact .truncated hwf henc
  | [a] => obtain ⟨i, b, hwf, henc⟩ := hcut a; exact .truncated hwf henc
  | a :: b :: r => exact hk a b r

theorem reads_decodeEdge (pin level : Byte) (r : List Byte) : Reads (0x82#8 :: pin :: level :: r) (decodeEdge pin level r) := by
  unfold decodeEdge
  split
  · subst level; exact .record rfl rfl
  · split
    · subst level; exact .record rfl rfl
    · exact .edgeLevel (by bv_omega)

theorem reads_decodeFR (r : List Byte) : Reads (0x41#8 :: r) (decodeFR .rdBuf r) := by
  match r with
  | [] => exact .truncated (i := .rdBuf 0 0) rfl rfl
  | [sel] => exact .truncated (i := .rdBuf sel 0) rfl rfl
  | [sel, lo] => exact .truncated (i := .rdBuf sel (u16le lo 0)) (next := 0) (missing := []) rfl (by simp [encode, encodeU16_u16le])
  | sel :: lo :: hi :: r => exact .record rfl (by simp [encode, encodeU16_u16le])

/-- A block of as many bytes as a count says is encoded under that count. -/
theorem encodeBlock_of_count {n : Half} {d : List Byte} (h : d.length = n.toNat) : encodeBlock d = encodeU16 n ++ d := by
  rw [encodeBlock, h, BitVec.ofNat_toNat, BitVec.setWidth_eq]

theorem blockFits_of_count {n : Half} {d : List Byte} (h : d.length = n.toNat) : blockFits d = true :=
  decide_eq_true (h ▸ n.isLt)

section
variable {pre : List Byte} {k : List Byte → Instr} (henc : ∀ d, encode (k d) = pre ++ encodeBlock d)
  (hwf : ∀ d, (k d).wf = blockFits d)
include henc hwf

/-- The data that end a block format are all there, or some are missing (R86, R89). -/
theorem reads_decodeBlock (n : Half) (r : List Byte) : Reads (pre ++ (encodeU16 n ++ r)) (decodeBlock k n r) := by
  unfold decodeBlock
  split
  next hall =>
    have hcount : (r.take n.toNat).length = n.toNat := by simp [hall]
    refine .record ((hwf _).trans (blockFits_of_count hcount)) ?_
    rw [henc, encodeBlock_of_count hcount]; simp
  next hshort =>
    obtain ⟨m, hm⟩ : ∃ m, n.toNat = r.length + (m + 1) := ⟨n.toNat - r.length - 1, by omega⟩
    have hcount : (r ++ List.replicate (m + 1) 0).length = n.toNat := by simp [hm]
    refine .truncated (i := k (r ++ List.replicate (m + 1) 0)) (next := 0) (missing := List.replicate m 0)
      ((hwf _).trans (blockFits_of_count hcount)) ?_
    rw [henc, encodeBlock_of_count hcount]; simp [List.replicate_succ]

/-- Bytes that end before a block's count does are missing the rest of a record (R89). -/
theorem reads_cutHeader {bytes missing : List Byte} {lo hi next : Byte} (hbytes : pre ++ [lo, hi] = bytes ++ next :: missing) :
    Reads bytes (.reject .truncated) := by
  obtain ⟨d, hcount⟩ : ∃ d : List Byte, d.length = (u16le lo hi).toNat := ⟨List.replicate _ 0, List.length_replicate⟩
  refine .truncated ((hwf d).trans (blockFits_of_count hcount)) (next := next) (missing := missing ++ d) ?_
  rw [henc, encodeBlock_of_count hcount, encodeU16_u16le, ← List.append_assoc, hbytes]; simp

end

theorem reads_decodeFB {op : Byte} {k : List Byte → Instr} (henc : ∀ d, encode (k d) = op :: encodeBlock d)
    (hwf : ∀ d, (k d).wf = blockFits d) (r : List Byte) : Reads (op :: r) (decodeFB k r) := by
  match r with
  | [] => exact reads_cutHeader (pre := [op]) (lo := 0) (hi := 0) henc hwf rfl
  | [lo] => exact reads_cutHeader (pre := [op]) (lo := lo) (hi := 0) henc hwf rfl
  | lo :: hi :: r => simpa [decodeFB, encodeU16_u16le] using reads_decodeBlock (pre := [op]) henc hwf (u16le lo hi) r

theorem reads_decodeFS {op : Byte} {k : Byte → Byte → List Byte → Instr}
    (henc : ∀ a b d, encode (k a b d) = op :: a :: b :: encodeBlock d) (hwf : ∀ a b d, (k a b d).wf = blockFits d)
    (r : List Byte) : Reads (op :: r) (decodeFS k r) := by
  match r with
  | [] => exact reads_cutHeader (pre := [op, 0, 0]) (lo := 0) (hi := 0) (henc 0 0) (hwf 0 0) rfl
  | [a] => exact reads_cutHeader (pre := [op, a, 0]) (lo := 0) (hi := 0) (henc a 0) (hwf a 0) rfl
  | [a, b] => exact reads_cutHeader (pre := [op, a, b]) (lo := 0) (hi := 0) (henc a b) (hwf a b) rfl
  | [a, b, lo] => exact reads_cutHeader (pre := [op, a, b]) (lo := lo) (hi := 0) (henc a b) (hwf a b) rfl
  | a :: b :: lo :: hi :: r =>
    simpa [decodeFS, encodeU16_u16le] using reads_decodeBlock (pre := [op, a, b]) (henc a b) (hwf a b) (u16le lo hi) r

/-! #### All records -/

theorem opcode_eq {op : Byte} {n : Nat} (h : op.toNat = n) : op = BitVec.ofNat 8 n := by
  rw [← h, BitVec.ofNat_toNat, BitVec.setWidth_eq]

/-- The decoder reads its bytes as R81 to R89 say: its table row by row, each by its format. -/
theorem reads_decode (bytes : List Byte) : Reads bytes (decode bytes) := by
  cases bytes with
  | nil => exact .truncated (i := .crcClr) rfl rfl
  | cons op r =>
    unfold decode
    dsimp only
    split
    next h => rw [opcode_eq h]; exact .record rfl rfl
    next h => rw [opcode_eq h]; exact reads_decodeF1 (fun _ => rfl) (fun _ => rfl) r
    next h => rw [opcode_eq h]; exact reads_decodeFB (fun _ => rfl) (fun _ => rfl) r
    next h => rw [opcode_eq h]; exact reads_decodeFS (fun _ _ _ => rfl) (fun _ _ _ => rfl) r
    next h => rw [opcode_eq h]; exact reads_decodeFS (fun _ _ _ => rfl) (fun _ _ _ => rfl) r
    next h =>
      rw [opcode_eq h]
      exact reads_decodeF2 (fun a => ⟨.encExta a 0, 0, rfl, rfl⟩) (fun _ _ _ => .record rfl rfl) r
    next h => rw [opcode_eq h]; exact .record rfl rfl
    next h => rw [opcode_eq h]; exact .record rfl rfl
    next h => rw [opcode_eq h]; exact reads_decodeFB (fun _ => rfl) (fun _ => rfl) r
    next h => rw [opcode_eq h]; exact .record rfl rfl
    next h => rw [opcode_eq h]; exact reads_decodeFS (fun _ _ _ => rfl) (fun _ _ _ => rfl) r
    next h => rw [opcode_eq h]; exact reads_decodeF1 (fun _ => rfl) (fun _ => rfl) r
    next h => rw [opcode_eq h]; exact reads_decodeFR r
    next h => rw [opcode_eq h]; exact reads_decodeF1 (fun _ => rfl) (fun _ => rfl) r
    next h => rw [opcode_eq h]; exact .record rfl rfl
    next h =>
      rw [opcode_eq h]
      exact reads_decodeF2 (fun a => ⟨.evEdge a false, 0, rfl, rfl⟩) reads_decodeEdge r
    next h => rw [opcode_eq h]; exact .record rfl rfl
    next =>
      split
      next hcommand => exact .reservedCommand hcommand (by simp_all [commandOpcodes])
      next hevent => exact .reservedEvent (by omega) (by simp_all [eventOpcodes])

/-- A reserved opcode is read by its half of the opcode space (R87, R88). -/
theorem decode_reserved {op : Byte} (hc : op.toNat ∉ commandOpcodes) (he : op.toNat ∉ eventOpcodes) (rest : List Byte) :
    decode (op :: rest) = if op.toNat < 0x80 then .reservedCommand op rest else .reject (.reservedEvent op) := by
  simp only [commandOpcodes, eventOpcodes, List.mem_cons, List.not_mem_nil, or_false, not_or] at hc he
  simp [decode, hc, he]

theorem decode_reservedCommand {op : Byte} (hcommand : op.toNat < 0x80) (hop : op.toNat ∉ commandOpcodes) (rest : List Byte) :
    decode (op :: rest) = .reservedCommand op rest := by
  have hevent : ∀ n ∈ eventOpcodes, 0x80 ≤ n := by decide
  rw [decode_reserved hop (fun he => absurd (hevent _ he) (by omega)), if_pos hcommand]

theorem decode_reservedEvent {op : Byte} (hevent : 0x80 ≤ op.toNat) (hop : op.toNat ∉ eventOpcodes) (rest : List Byte) :
    decode (op :: rest) = .reject (.reservedEvent op) := by
  have hcommand : ∀ n ∈ commandOpcodes, n < 0x80 := by decide
  rw [decode_reserved (fun hc => absurd (hcommand _ hc) (by omega)) hop, if_neg (by omega)]

theorem decode_edgeLevel {level : Byte} (h : 1 < level.toNat) (pin : Byte) (rest : List Byte) :
    decode (0x82#8 :: pin :: level :: rest) = .reject (.edgeLevel level) := by
  show decodeEdge pin level rest = _
  rw [decodeEdge, if_neg (by bv_omega), if_neg (by bv_omega)]

theorem decode_edge {level : Byte} (h : level.toNat ≤ 1) (pin : Byte) (rest : List Byte) :
    ∃ b, decode (0x82#8 :: pin :: level :: rest) = .instr (.evEdge pin b) rest := by
  obtain rfl | rfl : level = 0#8 ∨ level = 1#8 := by bv_omega
  · exact ⟨false, rfl⟩
  · exact ⟨true, rfl⟩

/-- A proper beginning of a record is read as truncated: read as anything else, the whole record would be too, with bytes after
it. -/
theorem decode_truncated {i : Instr} (hwf : i.wf = true) {bytes missing : List Byte} {next : Byte}
    (hbytes : encode i = bytes ++ next :: missing) : decode bytes = .reject .truncated := by
  have hwhole : decode (bytes ++ next :: missing) = .instr i [] := by
    rw [← hbytes, ← List.append_nil (encode i)]; exact decode_encode hwf []
  have hreads := reads_decode bytes
  generalize decode bytes = a at hreads
  cases hreads with
  | truncated => rfl
  | record hwf' hbytes' =>
    rw [hbytes', List.append_assoc, decode_encode hwf'] at hwhole
    injection hwhole with _ hrest
    exact absurd hrest (List.append_ne_nil_of_right_ne_nil _ (List.cons_ne_nil _ _))
  | reservedCommand hcommand hop => cases (decode_reservedCommand hcommand hop _).symm.trans hwhole
  | reservedEvent hevent hop => cases (decode_reservedEvent hevent hop _).symm.trans hwhole
  | edgeLevel hlevel => cases (decode_edgeLevel hlevel _ _).symm.trans hwhole

/-- The decoder answers exactly what R81 to R89 say of its bytes. -/
theorem decode_eq_iff {bytes : List Byte} {a : Decoded} : decode bytes = a ↔ Reads bytes a := by
  constructor
  · rintro rfl; exact reads_decode bytes
  · intro h
    cases h with
    | record hwf hbytes => rw [hbytes, decode_encode hwf]
    | truncated hwf hbytes => exact decode_truncated hwf hbytes
    | reservedCommand hcommand hop => exact decode_reservedCommand hcommand hop _
    | reservedEvent hevent hop => exact decode_reservedEvent hevent hop _
    | edgeLevel hlevel => exact decode_edgeLevel hlevel _ _

/-- Settles O1, format by format. -/
theorem decodeOfEncodeIsTheRecord : Obligations.DecodeOfEncodeIsTheRecord := fun _ rest hwf => decode_encode hwf rest

/-- Settles O2: of what the decoder can read, a record is one case. -/
theorem decodedBytesAreTheEncoding : Obligations.DecodedBytesAreTheEncoding := by
  intro bytes rest i h
  cases decode_eq_iff.1 h with
  | record hwf hbytes => exact ⟨hwf, hbytes⟩

/-- Settles O3, record by record. -/
theorem writtenOutRecordsDecode : Obligations.WrittenOutRecordsDecode :=
  ⟨rfl, rfl, rfl, rfl, rfl, rfl, rfl, rfl, rfl⟩

end Sys2Proof

/-! ### Reserved, ill-formed and refused records (spec/30_encoding.md R87 to R89) -/

namespace Sys2Proof.Machine

/-- A reserved command runs past its one byte (R87). -/
theorem step_of_reservedCommand {s : State} {op : Byte} {rest : List Byte} (h : decode s.stream = .reservedCommand op rest) :
    step s = .next (setStatus .badOpcode (advance rest s)) := by
  unfold step fetch
  cases hs : s.stream with
  | nil => rw [hs] at h; cases h
  | cons b bs => rw [hs] at h; simp only [h]; rfl

/-- A record that the decoder rejects has no step (R88, R89). -/
theorem step_of_reject {s : State} {j : Reject} (hs : s.stream ≠ []) (h : decode s.stream = .reject j) :
    step s = .refused (refusalOf j) := by
  obtain ⟨b, bs, hcons⟩ := List.exists_cons_of_ne_nil hs
  unfold step fetch
  rw [hcons] at h ⊢
  simp only [h]; rfl

/-- Settles O6: what the decoder reads there, and what a reserved command does. -/
theorem reservedCommandSetsBadOpcode : Obligations.ReservedCommandSetsBadOpcode := by
  intro s op rest hs hcommand hop
  exact step_of_reservedCommand (hs ▸ decode_reservedCommand hcommand hop rest)

/-- Settles O7. -/
theorem reservedEventIsRefused : Obligations.ReservedEventIsRefused := by
  intro s op rest hs hevent hop
  exact step_of_reject (hs ▸ List.cons_ne_nil _ _) (hs ▸ decode_reservedEvent hevent hop rest)

/-- An edge on a pin that does not exist (R89). -/
theorem execEvEdge_of_noPin {s : State} (hdeb : s.params.debPresent = true) {pin : Byte} (hpin : s.params.nPins ≤ pin.toNat)
    (level : Bool) : execEvEdge pin level s = .refused (.edgePin pin) := by
  unfold execEvEdge; rw [if_neg (by simp [hdeb]), if_pos hpin]

/-- A step on the bytes of an edge with a possible level runs the edge (R84). -/
theorem step_edge {s : State} {pin b : Byte} {rest : List Byte} (hs : s.stream = 0x82#8 :: pin :: b :: rest)
    (hlevel : b.toNat ≤ 1) : ∃ level, step s = execEvEdge pin level (advance rest s) := by
  obtain ⟨level, hdecode⟩ := decode_edge hlevel pin rest
  exact ⟨level, step_of_decode (hs ▸ hdecode)⟩

/-- Settles O8: two grounds are the decoder's, two are `EV.EDGE`'s own. -/
theorem illFormedRecordsAreRefused : Obligations.IllFormedRecordsAreRefused := by
  intro s
  refine ⟨fun i k hwf hpos hlt hs => ?truncated, fun pin b rest hs hlevel => ?edgeLevel,
    fun pin b rest hs hlevel hdeb hpin => ?edgePin, fun pin b rest hs hlevel hdeb => ?debAbsent⟩
  case truncated =>
    have hbytes : encode i = s.stream ++ (encode i)[k] :: (encode i).drop (k + 1) := by
      rw [hs, List.getElem_cons_drop, List.take_append_drop]
    have hne : s.stream ≠ [] := by rw [hs, ← List.length_pos_iff, List.length_take]; omega
    exact step_of_reject hne (decode_truncated hwf hbytes)
  case edgeLevel => exact step_of_reject (hs ▸ List.cons_ne_nil _ _) (hs ▸ decode_edgeLevel hlevel pin rest)
  case edgePin =>
    obtain ⟨level, hstep⟩ := step_edge hs hlevel
    exact hstep.trans (execEvEdge_of_noPin (s := advance rest s) hdeb hpin level)
  case debAbsent =>
    obtain ⟨level, hstep⟩ := step_edge hs hlevel
    exact hstep.trans (execEvEdge_of_debAbsent (s := advance rest s) hdeb pin level)

/-! #### Of the records, only `EV.EDGE` is ever refused (R89) -/

theorem ite_ne_result {c : Prop} [Decidable c] {r q x : Result} (hr : r ≠ x) (hq : q ≠ x) : (if c then r else q) ≠ x := by
  split
  · exact hr
  · exact hq

theorem execEncExta_ne_refused (id ty : Byte) (s : State) (r : Refusal) : execEncExta id ty s ≠ .refused r := by
  unfold execEncExta
  cases s.extBuf.readBytes 0 s.extLen <;> exact ite_ne_result nofun nofun

theorem execRdBuf_ne_refused (sel : Byte) (idx : Half) (s : State) (r : Refusal) : execRdBuf sel idx s ≠ .refused r := by
  unfold execRdBuf
  split
  · nofun
  · split
    · split <;> nofun
    · nofun

/-- A sequence refuses only where one of its halves does. -/
theorem andThen_ne_refused {r : Result} {k : State → Result} {x : Refusal} (hr : r ≠ .refused x) (hk : ∀ t, k t ≠ .refused x) :
    andThen r k ≠ .refused x := by
  cases r with
  | next t => exact hk t
  | fault f => nofun
  | refused y => exact hr

theorem execEvTick_ne_refused (s : State) (r : Refusal) : execEvTick s ≠ .refused r :=
  have hclose : closeWindow (countTick s) ≠ .refused r := by unfold closeWindow; split <;> nofun
  andThen_ne_refused (ite_ne_result hclose nofun) fun _ => ite_ne_result nofun nofun

theorem execEvEdge_refused {pin : Byte} {level : Bool} {s : State} {r : Refusal} (h : execEvEdge pin level s = .refused r) :
    s.params.nPins ≤ pin.toNat ∨ s.params.debPresent = false := by
  unfold execEvEdge at h
  split at h
  · exact .inr ‹_›
  · split at h
    · exact .inl ‹_›
    · exact absurd h (ite_ne_result nofun nofun)

/-- Of the records, only an edge is ever refused: where DEB is not built or the pin does not exist. -/
theorem exec_refused {i : Instr} {s : State} {r : Refusal} (h : exec i s = .refused r) :
    ∃ pin level, i = .evEdge pin level ∧ (s.params.nPins ≤ pin.toNat ∨ s.params.debPresent = false) := by
  cases i with
  | evEdge pin level => exact ⟨pin, level, rfl, execEvEdge_refused h⟩
  | encExta id ty => exact absurd h (execEncExta_ne_refused id ty s r)
  | rdBuf sel idx => exact absurd h (execRdBuf_ne_refused sel idx s r)
  | evTick => exact absurd h (execEvTick_ne_refused s r)
  | encShort id ty d => exact absurd h (ite_ne_result nofun (ite_ne_result nofun nofun))
  | encExt id ty d => exact absurd h (ite_ne_result nofun nofun)
  | extSeg total current d => exact absurd h (ite_ne_result nofun (ite_ne_result nofun (ite_ne_result nofun nofun)))
  | rdReg q =>
    have hread : execRdReg q s ≠ .refused r := by unfold execRdReg; split <;> nofun
    exact absurd h hread
  | evRxb a => exact absurd h (ite_ne_result nofun nofun)
  | crcClr | crcByte a | crcBlk d | encAck | encNack | decShort d | rxClr | evReset => cases h

/-- Settles O9: a refused edge, or one of the three ways in which the decoder rejects. -/
theorem onlyListedRecordsAreRefused : Obligations.OnlyListedRecordsAreRefused := by
  intro s r h
  rcases step_refused h with ⟨i, rest, hdecode, hexec⟩ | ⟨hne, j, hdecode, _⟩
  · obtain ⟨pin, level, rfl, hground⟩ := exec_refused hexec
    obtain ⟨_, hbytes⟩ := decodedBytesAreTheEncoding _ _ _ hdecode
    exact .inr (.inr ⟨pin, _, rest, hbytes, .inr hground⟩)
  · have hreads := decode_eq_iff.1 hdecode
    generalize s.stream = bytes at hreads hne
    cases hreads with
    | reservedEvent hevent hop => exact .inl ⟨_, _, rfl, hevent, hop⟩
    | @truncated _ missing i next hwf hbytes =>
      refine .inr (.inl ⟨i, bytes.length, hwf, List.length_pos_iff.2 hne, ?_, ?_⟩) <;> simp [hbytes]
    | edgeLevel hlevel => exact .inr (.inr ⟨_, _, _, rfl, .inl hlevel⟩)

end Sys2Proof.Machine

/-! ### Output events (spec/30_encoding.md R95) -/

namespace Sys2Proof.Machine

/-- Outputs that all satisfy `P` were appended. -/
def Appends (s t : State) (P : Output → Prop) : Prop := ∃ new, t.outputs = s.outputs ++ new ∧ ∀ e ∈ new, P e

theorem appends_nothing {s t : State} {P : Output → Prop} (h : t.outputs = s.outputs) : Appends s t P :=
  ⟨[], by rw [h, List.append_nil], nofun⟩

theorem appends_one {s t : State} {e : Output} {P : Output → Prop} (h : t.outputs = s.outputs ++ [e]) (he : P e) : Appends s t P :=
  ⟨[e], h, List.forall_mem_singleton.2 he⟩

/-- What holds of the outputs of a latch: its result, and for a checksum mismatch the NACK request (R156). -/
theorem forall_mem_latchOutputs {P : Output → Prop} {code : ResCode} (hresult : P (.rxResult code))
    (hnack : code = .crcErr → P .nackReq) : ∀ e ∈ latchOutputs code, P e := by
  unfold latchOutputs
  split
  next hcrc => simpa using ⟨hresult, hnack hcrc⟩
  next => simpa using hresult

theorem mem_buttonEvents {s : State} {ps : List Nat} {e : Output} (h : e ∈ buttonEvents s ps) :
    ∃ p ∈ ps, ∃ pressed, e = .button p pressed := by
  obtain ⟨p, hp, rfl⟩ := List.mem_map.1 h
  exact ⟨p, List.mem_of_mem_filter hp, _, rfl⟩

/-- Every output that a tick appends is a latched result's, which the tick leaves latched, or a button event of a pin that exists
(R152, R156, R203). -/
theorem execEvTick_outputs {s t : State} (h : execEvTick s = .next t) :
    ∃ received buttons, t.outputs = s.outputs ++ (received ++ buttons) ∧
      (received = [] ∨ (t.resValid = true ∧ (t.resCode = .crcErr → t.nackReq = true) ∧ received = latchOutputs t.resCode)) ∧
      ∀ e ∈ buttons, ∃ p pressed, p < s.params.nPins ∧ e = .button p pressed := by
  obtain ⟨b, hreceive, hdebounce⟩ := execEvTick_next h
  have hparams : b.params = s.params := by rcases hreceive with ⟨_, rfl⟩ | ⟨_, w, _, rfl⟩ <;> simp
  have hfired : ∃ pend run buttons, t = { b with debPend := pend, debRun := run, outputs := b.outputs ++ buttons } ∧
      ∀ e ∈ buttons, ∃ p pressed, p < s.params.nPins ∧ e = .button p pressed := by
    rcases hdebounce with ⟨_, rfl⟩ | ⟨_, rfl⟩
    · exact ⟨_, _, [], by rw [List.append_nil], nofun⟩
    · obtain ⟨pend, hfire, _⟩ := debFire_eq b
      refine ⟨pend, false, _, hfire, fun e he => ?_⟩
      obtain ⟨p, hp, pressed, rfl⟩ := mem_buttonEvents he
      exact ⟨p, pressed, hparams ▸ List.mem_range.1 hp, rfl⟩
  obtain ⟨pend, run, buttons, rfl, hbuttons⟩ := hfired
  rcases hreceive with ⟨_, rfl⟩ | ⟨_, w, _, rfl⟩
  · exact ⟨[], buttons, rfl, .inl rfl, hbuttons⟩
  · exact ⟨latchOutputs _, buttons, List.append_assoc _ _ _, .inr ⟨rfl, fun hcrc => by simpa using .inr hcrc, rfl⟩, hbuttons⟩

theorem startAssembly_outputs (total current : Byte) (s : State) : (startAssembly total current s).outputs = s.outputs := by
  unfold startAssembly; split <;> rfl

/-- `EXT.SEG` emits nothing, or announces the payload it completed (R181). -/
theorem execExtSeg_appends {total current : Byte} {d : List Byte} {s t : State} {P : Output → Prop}
    (h : execExtSeg total current d s = .next t) (hP : t.extDone = true → P (.extDone (len16 t.extLen))) : Appends s t P := by
  rcases execExtSeg_next h with ⟨_, rfl⟩ | ⟨_, _, rfl⟩ | ⟨_, _, _, rfl⟩ | ⟨_, _, _, rfl⟩
  · exact appends_nothing rfl
  · exact appends_nothing rfl
  · exact appends_nothing (startAssembly_outputs total current s)
  · unfold advanceAssembly at hP ⊢
    split at hP
    next hlast =>
      rw [if_pos hlast]
      exact appends_one (by simp [startAssembly_outputs]) (hP rfl)
    next hmore =>
      rw [if_neg hmore]
      exact appends_nothing (startAssembly_outputs total current s)

/-- The commands that build a byte sequence (R130). -/
abbrev Encodes (i : Instr) : Prop :=
  (∃ a b d, i = .encShort a b d) ∨ (∃ a b d, i = .encExt a b d) ∨ (∃ a b, i = .encExta a b) ∨ i = .encAck ∨ i = .encNack

/-- An `ENC.*` command emits nothing, or announces the sequence it built (R130). -/
theorem encodes_appends {i : Instr} {s t : State} {P : Output → Prop} (h : exec i s = .next t) (hi : Encodes i)
    (hP : t.cmdStatus = .ok → Encodes i → P (.txReady t.txKind (len16 t.txLen))) : Appends s t P := by
  have hout : t.outputs = s.outputs ∨ (t.cmdStatus = .ok ∧ t.outputs = s.outputs ++ [.txReady t.txKind (len16 t.txLen)]) := by
    rcases hi with ⟨id, ty, d, rfl⟩ | ⟨id, ty, d, rfl⟩ | ⟨id, ty, rfl⟩ | rfl | rfl
    · rcases execEncShort_next h with ⟨_, rfl⟩ | ⟨_, _, rfl⟩
      · exact .inl rfl
      · exact .inr ⟨rfl, rfl⟩
    · rcases execEncExt_next h with ⟨_, rfl⟩ | ⟨_, rfl⟩
      · exact .inl rfl
      · exact .inr ⟨rfl, rfl⟩
    · rcases execEncExta_next h with ⟨_, rfl⟩ | ⟨_, _, _, rfl⟩
      · exact .inl rfl
      · exact .inr ⟨rfl, rfl⟩
    · cases h; exact .inr ⟨rfl, rfl⟩
    · cases h; exact .inr ⟨rfl, rfl⟩
  rcases hout with hnone | ⟨hok, hone⟩
  · exact appends_nothing hnone
  · exact appends_one hone (hP hok hi)

/-- `RD.REG` emits nothing, or the value it read (R230). -/
theorem execRdReg_appends {r : Byte} {s t : State} {P : Output → Prop} (h : execRdReg r s = .next t) (hP : ∀ v, P (.read v)) :
    Appends s t P := by
  rcases execRdReg_next h with ⟨_, rfl⟩ | ⟨v, _, rfl⟩
  · exact appends_nothing rfl
  · exact appends_one rfl (hP v)

/-- `RD.BUF` emits nothing, or the byte it read (R230). -/
theorem execRdBuf_appends {sel : Byte} {idx : Half} {s t : State} {P : Output → Prop} (h : execRdBuf sel idx s = .next t)
    (hP : ∀ v, P (.read v)) : Appends s t P := by
  rcases execRdBuf_next h with ⟨_, rfl⟩ | ⟨_, _, _, _, rfl⟩ | ⟨_, _, b, _, _, _, rfl⟩
  · exact appends_nothing rfl
  · exact appends_nothing rfl
  · exact appends_one rfl (hP _)

/-- Settles O59: a record's outputs by the unit it belongs to; the other records' frames leave the outputs alone. -/
theorem outputsComeFromTheirRecords : Obligations.OutputsComeFromTheirRecords := by
  intro i s t h
  cases i with
  | rdReg r => exact execRdReg_appends h fun _ => .inl ⟨r, rfl⟩
  | rdBuf sel idx => exact execRdBuf_appends h fun _ => .inr ⟨sel, idx, rfl⟩
  | encShort id ty d => exact encodes_appends h (.inl ⟨id, ty, d, rfl⟩) fun hok hi => ⟨rfl, rfl, hok, hi⟩
  | encExt id ty d => exact encodes_appends h (.inr (.inl ⟨id, ty, d, rfl⟩)) fun hok hi => ⟨rfl, rfl, hok, hi⟩
  | encExta id ty => exact encodes_appends h (.inr (.inr (.inl ⟨id, ty, rfl⟩))) fun hok hi => ⟨rfl, rfl, hok, hi⟩
  | encAck => exact encodes_appends h (.inr (.inr (.inr (.inl rfl)))) fun hok hi => ⟨rfl, rfl, hok, hi⟩
  | encNack => exact encodes_appends h (.inr (.inr (.inr (.inr rfl)))) fun hok hi => ⟨rfl, rfl, hok, hi⟩
  | extSeg total current d => exact execExtSeg_appends h fun hdone => ⟨hdone, rfl, total, current, d, rfl⟩
  | decShort d =>
    obtain rfl := execDecShort_next h
    exact ⟨_, rfl, forall_mem_latchOutputs ⟨rfl, rfl, .inl ⟨d, rfl⟩⟩ fun hcrc => ⟨hcrc, by simp [hcrc], .inl ⟨d, rfl⟩⟩⟩
  | evTick =>
    obtain ⟨received, buttons, hout, hreceived, hbuttons⟩ := execEvTick_outputs h
    refine ⟨_, hout, List.forall_mem_append.2 ⟨?received, ?buttons⟩⟩
    case received =>
      rcases hreceived with rfl | ⟨hvalid, hnack, rfl⟩
      · nofun
      · exact forall_mem_latchOutputs ⟨rfl, hvalid, .inr rfl⟩ fun hcrc => ⟨hcrc, hnack hcrc, .inr rfl⟩
    case buttons =>
      intro e he
      obtain ⟨p, pressed, hp, rfl⟩ := hbuttons e he
      exact ⟨hp, rfl⟩
  | _ => rw [exec_frame h]; exact appends_nothing rfl

end Sys2Proof.Machine

/-! ### The checksum and the CRC unit (spec/41_crc.md) -/

namespace Sys2Proof.Machine

theorem crc16Update_eq_iterate (c : Half) (b : Byte) : crc16Update c b = crcBit^[8] (c ^^^ b.setWidth 16) := rfl

theorem crcFold_replicate_zero (k : Nat) : crcFold 0#16 (List.replicate k 0#8) = 0#16 := by
  induction k with
  | zero => rfl
  | succ k ih => rw [List.replicate_succ, crcFold_cons, crc16Update_zero, ih]

/-- Settles O11: zero bytes keep the accumulator at its initial value 0. -/
theorem checksumIgnoresLeadingZeros : Obligations.ChecksumIgnoresLeadingZeros := by
  intro k s
  rw [crc16_eq_crcFold, crcFold_append, crcFold_replicate_zero, crc16_eq_crcFold]

/-- The fold is linear in the accumulator and the bytes together. -/
theorem crcFold_xor (c d : Half) {s t : List Byte} (h : s.length = t.length) :
    crcFold (c ^^^ d) (List.zipWith (· ^^^ ·) s t) = crcFold c s ^^^ crcFold d t := by
  induction s generalizing c d t with
  | nil => obtain rfl := List.length_eq_zero_iff.1 h.symm; rfl
  | cons a s ih =>
    obtain ⟨b, t, rfl⟩ := List.exists_cons_of_length_eq_add_one h.symm
    rw [List.zipWith_cons_cons, crcFold_cons, crc16Update_xor, ih _ _ (Nat.succ.inj h), crcFold_cons, crcFold_cons]

/-- Settles O12: the initial value 0 is the sum of two initial values. -/
theorem checksumIsLinear : Obligations.ChecksumIsLinear := fun _ _ h => crcFold_xor 0#16 0#16 h

/-- From one accumulator, different bytes give different accumulators: the bytes' difference alone is fed to the accumulator 0. -/
theorem crc16Update_byte_injective {c : Half} {a b : Byte} (h : crc16Update c a = crc16Update c b) : a = b := by
  have hzero : crc16Update 0#16 (a ^^^ b) = 0#16 := by
    have hsum := crc16Update_xor c c a b
    rwa [h, BitVec.xor_self, BitVec.xor_self] at hsum
  have hwide : (a ^^^ b).setWidth 16 = 0#16 := (crc16Update_eq_zero hzero).symm
  have hdiff : a ^^^ b = 0#8 := by simpa using congrArg (BitVec.setWidth 8) hwide
  exact BitVec.xor_eq_zero_iff.1 hdiff

/-- Any change of one byte changes the checksum. -/
theorem crcFold_set_injective {c : Half} {s : List Byte} {k : Nat} {a : Byte} (hk : k < s.length)
    (h : crcFold c (s.set k a) = crcFold c s) : a = s[k] := by
  induction s generalizing c k with
  | nil => exact absurd hk (Nat.not_lt_zero k)
  | cons b s ih =>
    cases k with
    | zero => exact crc16Update_byte_injective (crcFold_injective s h)
    | succ k => exact ih (Nat.lt_of_succ_lt_succ hk) h

theorem xor_oneBit_ne (a : Byte) {b : Nat} (hb : b < 8) : a ^^^ (1#8 <<< b) ≠ a := by
  intro h
  have hbit := congrArg (fun v : Byte => v.getLsbD b) h
  simp [hb] at hbit

/-- Settles O13: a byte with one bit changed is another byte. -/
theorem checksumSeesEverySingleBit : Obligations.ChecksumSeesEverySingleBit :=
  fun s _ _ hk hb h => xor_oneBit_ne s[_] hb (crcFold_set_injective hk h)

/-- Bits that are 0 are shifted out without a trace of the polynomial. -/
theorem crcBit_iterate_of_low_bits_zero {v : Half} {n : Nat} (h : ∀ i < n, v.getLsbD i = false) : crcBit^[n] v = v >>> n := by
  induction n with
  | zero => simp
  | succ n ih =>
    have hbit : (v >>> n).getLsbD 0 = false := by simpa using h n n.lt_succ_self
    rw [Function.iterate_succ_apply', ih fun i hi => h i (Nat.lt_succ_of_lt hi), crcBit, hbit, BitVec.shiftRight_add]
    rfl

/-- The accumulator's own low byte cancels it, and the high byte moves down. -/
theorem crc16Update_lowByte (c : Half) : crc16Update c (c.extractLsb' 0 8) = c >>> 8 := by
  have hlow : ∀ i, (c ^^^ (c.extractLsb' 0 8).setWidth 16).getLsbD i = (decide (8 ≤ i) && c.getLsbD i) := by
    intro i
    by_cases hi : i < 8
    · simp [hi, Nat.lt_trans hi (show 8 < 16 by decide), Nat.not_le.2 hi]
    · simp [Nat.not_lt.1 hi]
  rw [crc16Update_eq_iterate, crcBit_iterate_of_low_bits_zero fun i hi => by simp [hlow, hi]]
  exact BitVec.eq_of_getLsbD_eq fun i _ => by simp [BitVec.getLsbD_ushiftRight, hlow, -BitVec.getLsbD_xor]

/-- The high byte, moved down, is cancelled by itself, and 0 stays 0. -/
theorem crc16Update_highByte (c : Half) : crc16Update (c >>> 8) (c.extractLsb' 8 8) = 0#16 := by
  have hzero : c >>> 8 ^^^ (c.extractLsb' 8 8).setWidth 16 = 0#16 := by
    refine BitVec.xor_eq_zero_iff.2 (BitVec.eq_of_getLsbD_eq fun i hi => ?_)
    by_cases hlow : i < 8
    · simp [hi, hlow]
    · simpa [hlow] using BitVec.getLsbD_of_ge c (8 + i) (by omega)
  rw [crc16Update_eq_iterate, hzero]; rfl

/-- Settles O14: the checksum's low byte brings its high byte down, which then cancels itself; the big-endian example is computed. -/
theorem checksumResidue : Obligations.ChecksumResidue := by
  refine ⟨fun s => ?_, by simp [crc16, crcFold, crc16Update, crcBit]⟩
  calc crc16 (s ++ [(crc16 s).extractLsb' 0 8, (crc16 s).extractLsb' 8 8])
    _ = crcFold (crc16 s) [(crc16 s).extractLsb' 0 8, (crc16 s).extractLsb' 8 8] := crcFold_append _ s _
    _ = crcFold (crc16 s >>> 8) [(crc16 s).extractLsb' 8 8] := by rw [crcFold_cons, crc16Update_lowByte]
    _ = 0#16 := by rw [crcFold_cons, crc16Update_highByte, crcFold_nil]

theorem exec_crcClr (s : State) : exec .crcClr s = .next { s with crc := 0#16, cmdStatus := .ok } := rfl

theorem exec_crcByte (a : Byte) (s : State) :
    exec (.crcByte a) s = .next { s with crc := crc16Update s.crc a, cmdStatus := .ok } := rfl

theorem exec_crcBlk (d : List Byte) (s : State) :
    exec (.crcBlk d) s = .next { s with crc := crcFold s.crc d, cmdStatus := .ok } := rfl

/-- A block of at least one byte does what its bytes do one at a time: each record starts from the accumulator and the status
that the one before it left, and both are written again. -/
theorem execSeq_crcBytes (a : Byte) (d : List Byte) (s : State) :
    execSeq ((a :: d).map .crcByte) s = exec (.crcBlk (a :: d)) s := by
  induction d generalizing a s with
  | nil => rfl
  | cons b d ih => rw [List.map_cons, execSeq_cons, exec_crcByte, andThen_next, ih, exec_crcBlk, exec_crcBlk]; rfl

/-- Settles O17, the second clause by induction on the bytes after the first. -/
theorem crcBlkIsSuccessiveCrcBytes : Obligations.CrcBlkIsSuccessiveCrcBytes := by
  refine fun d s => ⟨exec_crcBlk d s, fun hd => ?_⟩
  obtain ⟨a, d, rfl⟩ := List.exists_cons_of_ne_nil hd
  exact execSeq_crcBytes a d s

/-- Settles O10: the model's eight turns and its fold are the spec's; the two check values are computed. -/
theorem checksumIsTheReflectedLoop : Obligations.ChecksumIsTheReflectedLoop := by
  refine ⟨crc16Update_eq_iterate, crc16_eq_crcFold, ?checkValue, ?emptyFrame⟩
  all_goals simp [crc16, crcFold, crc16Update, crcBit]

/-- Settles O15. -/
theorem crcClrClearsTheAccumulator : Obligations.CrcClrClearsTheAccumulator := exec_crcClr

/-- Settles O16. -/
theorem crcByteFoldsOneByte : Obligations.CrcByteFoldsOneByte := exec_crcByte

end Sys2Proof.Machine

/-! ### The other sequences in the transmit buffer (spec/42_encoder.md R130, R131, R133, R135 to R138) -/

namespace Sys2Proof.Machine

/-- A buffer after a sequence was written to it from index 0: the sequence, and past it what stood there (R130). -/
theorem Memory.read_writeBytes_zero (m : Memory) (w : List Byte) (k : Nat) :
    (m.writeBytes 0 w).read k = if k < w.length then w[k]? else m.read k := by
  simp [Memory.read_writeBytes]

/-- What announcing a sequence and ending with `OK` changes (R130). -/
theorem setStatus_transmit (kind : TxKind) (w : List Byte) (s : State) :
    setStatus .ok (transmit kind w s) =
      { s with txBuf := s.txBuf.writeBytes 0 w, txLen := w.length, txKind := kind, cmdStatus := .ok,
               outputs := s.outputs ++ [.txReady kind (BitVec.ofNat 16 w.length)] } := rfl

/-- Where the parts of a short frame stand in a buffer it is written to from index 0, and that the bytes past it stay (R131). -/
theorem read_writeBytes_buildShort (m : Memory) (id ty : Byte) (p : List Byte) :
    let w := m.writeBytes 0 (buildShort id ty p)
    let c := crc16 (id :: ty :: BitVec.ofNat 8 p.length :: p)
    w.read 0 = some id ∧ w.read 1 = some ty ∧ w.read 2 = some (BitVec.ofNat 8 p.length) ∧
    (∀ k, k < p.length → w.read (3 + k) = p[k]?) ∧
    w.read (p.length + 3) = some (highByte c) ∧ w.read (p.length + 4) = some (lowByte c) ∧
    (∀ k, p.length + 5 ≤ k → w.read k = m.read k) := by
  intro w c
  have hframe : ∀ k, k < p.length + 5 →
      w.read k = (id :: ty :: BitVec.ofNat 8 p.length :: (p ++ [highByte c, lowByte c]))[k]? :=
    fun k hk => by rw [Memory.read_writeBytes_zero, if_pos (by rwa [buildShort_length])]; rfl
  refine ⟨hframe 0 (by omega), hframe 1 (by omega), hframe 2 (by omega), fun k hk => ?payload, ?crcHi, ?crcLo, fun k hk => ?past⟩
  case payload =>
    rw [hframe (3 + k) (by omega), Nat.add_comm]
    exact List.getElem?_append_left hk
  case crcHi => rw [hframe (p.length + 3) (by omega)]; simp
  case crcLo => rw [hframe (p.length + 4) (by omega)]; simp
  case past => rw [Memory.read_writeBytes_zero, if_neg (by rw [buildShort_length]; omega)]

/-- `ENC.SHORT` of a payload that is longer than `P_MAX_SHORT`, or whose frame has no room. -/
theorem execEncShort_of_tooLong {id ty : Byte} {d : List Byte} {s : State}
    (h : s.params.maxShort < d.length ∨ s.params.txCap < d.length + 5) :
    execEncShort id ty d s = .next (setStatus .encLen s) := by
  unfold execEncShort
  split
  next => rfl
  next hfits => rw [if_pos (h.resolve_left hfits)]; rfl

/-- Settles O19: the two tests of the payload's length, and for a frame that fits its parts in `tx_buf`. -/
theorem encShortBuildsTheFrame : Obligations.EncShortBuildsTheFrame := by
  intro id ty d s
  refine ⟨fun hlen hroom => ?built, fun hlong => execEncShort_of_tooLong (.inl hlong),
    fun hcaps hlen => shortFrame_has_room hcaps hlen, fun hfull => execEncShort_of_tooLong (.inr hfull)⟩
  refine ⟨_, execEncShort_of_fits hlen hroom, ?frame, read_writeBytes_buildShort s.txBuf id ty d⟩
  rw [setStatus_transmit, buildShort_length]

/-- `ENC.EXTA` of the payload that the assembler holds. -/
theorem execEncExta_of_holds {id ty : Byte} {s : State} {p : List Byte}
    (hdone : s.extDone = true) (hp : holds s.extBuf s.extLen p) :
    execEncExta id ty s = .next (setStatus .ok (transmit .ext (buildExt id ty p) s)) := by
  unfold execEncExta
  rw [if_neg (by simp [hdone]), Memory.readBytes_holds hp]; rfl

theorem execEncExta_of_notReady {id ty : Byte} {s : State} (h : s.extDone = false) :
    execEncExta id ty s = .next (setStatus .extNotReady s) := if_pos h

/-- Settles O21: the written bytes are a payload that the assembler holds, and the frame built of it is `ENC.EXT`'s. -/
theorem encExtaBuildsFromTheAssembledPayload : Obligations.EncExtaBuildsFromTheAssembledPayload := by
  intro id ty s
  refine ⟨fun hdone hvalued => ?built, execEncExta_of_notReady⟩
  obtain ⟨p, hlen, hread⟩ := holds_of_valuedBelow hvalued
  obtain ⟨hid, hty, hlo, hhi, hpayload, hpast⟩ := read_writeBytes_buildExt s.txBuf id ty p
  refine ⟨_, execEncExta_of_holds hdone ⟨hlen, hread⟩, ?frame, hid, hty, ?_⟩
  case frame => rw [transmit_buildExt, hlen]
  rw [← hlen] at hread ⊢
  exact ⟨hlo, hhi, fun k hk => (hpayload k hk).trans (hread k hk).symm, hpast⟩

/-- Settles O22: both sequences stand whole in `tx_buf`, and the bytes past them stay. -/
theorem encAckAndNackBuildTheMarkers : Obligations.EncAckAndNackBuildTheMarkers := by
  intro s
  have hack := Memory.read_writeBytes_zero s.txBuf ackBytes
  have hnack := Memory.read_writeBytes_zero s.txBuf nackBytes
  exact ⟨⟨_, rfl, rfl, hack 0, hack 1, hack 2, fun k hk => (hack k).trans (if_neg (by simpa [ackBytes] using hk))⟩,
    ⟨_, rfl, rfl, hnack 0, hnack 1, hnack 2, hnack 3, fun k hk => (hnack k).trans (if_neg (by simpa [nackBytes] using hk))⟩⟩

/-- Settles O23: a failing `ENC.*` writes `cmd_status` alone, and of the other records only reset's frame names the sequence. -/
theorem builtSequenceStaysUntilTheNextEncode : Obligations.BuiltSequenceStaysUntilTheNextEncode := by
  intro i s t h hreset hsuccess
  cases i with
  | encShort id ty d =>
    rcases execEncShort_next h with ⟨_, rfl⟩ | ⟨_, _, rfl⟩
    · exact ⟨rfl, rfl, rfl⟩
    · obtain ⟨hshort, _⟩ := hsuccess rfl
      exact absurd rfl (hshort id ty d)
  | encExt id ty d =>
    rcases execEncExt_next h with ⟨_, rfl⟩ | ⟨_, rfl⟩
    · exact ⟨rfl, rfl, rfl⟩
    · obtain ⟨_, hext, _⟩ := hsuccess rfl
      exact absurd rfl (hext id ty d)
  | encExta id ty =>
    rcases execEncExta_next h with ⟨_, rfl⟩ | ⟨_, _, _, rfl⟩
    · exact ⟨rfl, rfl, rfl⟩
    · obtain ⟨_, _, hexta, _⟩ := hsuccess rfl
      exact absurd rfl (hexta id ty)
  | encAck =>
    cases h
    obtain ⟨_, _, _, hack, _⟩ := hsuccess rfl
    exact absurd rfl hack
  | encNack =>
    cases h
    obtain ⟨_, _, _, _, hnack⟩ := hsuccess rfl
    exact absurd rfl hnack
  | evReset => exact absurd rfl hreset
  | _ => rw [exec_frame h]; exact ⟨rfl, rfl, rfl⟩

end Sys2Proof.Machine

/-! ### The short-frame decoder and the result latch (spec/43_decoder.md R154 to R159, R161) -/

namespace Sys2Proof.Machine

/-! #### `DECODE_SHORT`, case by case (R155) -/

theorem decodeShort_of_short {p : Params} {w : List Byte} (h : w.length < 5) : decodeShort p w = (.lenErr, 0#16, 0#16) := if_pos h

section
variable {p : Params} {w : List Byte}

/-- From 5 bytes on both checksums are latched, whatever the outcome. -/
theorem decodeShort_checksums (h : 5 ≤ w.length) :
    (decodeShort p w).2 = (receivedCrc w, crc16 (w.take (w.length - 2))) := by
  unfold decodeShort
  rw [if_neg (Nat.not_lt.2 h)]
  dsimp only
  split
  next => rfl
  next => split <;> rfl

theorem decodeShort_of_mismatch (h : 5 ≤ w.length) (hcrc : crc16 (w.take (w.length - 2)) ≠ receivedCrc w) :
    (decodeShort p w).1 = .crcErr := by
  unfold decodeShort
  rw [if_neg (Nat.not_lt.2 h)]
  exact congrArg Prod.fst (if_pos hcrc)

/-- The length field is checked only once the checksum is right. -/
theorem decodeShort_of_match (h : 5 ≤ w.length) (hcrc : crc16 (w.take (w.length - 2)) = receivedCrc w) :
    (decodeShort p w).1 =
      if p.maxShort < (w.getD 2 0).toNat ∨ w.length ≠ (w.getD 2 0).toNat + 5 then .lenErr else .frameOk := by
  unfold decodeShort
  rw [if_neg (Nat.not_lt.2 h)]
  dsimp only
  rw [if_neg (not_not.2 hcrc)]
  exact apply_ite Prod.fst _ _ _

end

/-! #### Frames that end in their checksum (R131) -/

/-- A byte sequence followed by its checksum, high byte first. -/
def withChecksum (f : List Byte) : List Byte := f ++ [highByte (crc16 f), lowByte (crc16 f)]

theorem buildShort_eq_withChecksum (id ty : Byte) (p : List Byte) :
    buildShort id ty p = withChecksum (id :: ty :: BitVec.ofNat 8 p.length :: p) := rfl

theorem highByte_append_lowByte (c : Half) : highByte c ++ lowByte c = c := BitVec.extractLsb'_append_extractLsb'

theorem receivedCrc_append (f : List Byte) (hi lo : Byte) : receivedCrc (f ++ [hi, lo]) = hi ++ lo := by
  simp [receivedCrc]

theorem checkedBytes_append (f : List Byte) (hi lo : Byte) :
    (f ++ [hi, lo]).take ((f ++ [hi, lo]).length - 2) = f := by simp

theorem crc16_eq_receivedCrc_withChecksum (f : List Byte) :
    crc16 ((withChecksum f).take ((withChecksum f).length - 2)) = receivedCrc (withChecksum f) := by
  rw [withChecksum, checkedBytes_append, receivedCrc_append, highByte_append_lowByte]

/-- The last two bytes are a checksum that the bytes before them do not have. -/
theorem decodeShort_append_of_mismatch {prm : Params} {f : List Byte} {hi lo : Byte} (hf : 3 ≤ f.length)
    (hcrc : crc16 f ≠ hi ++ lo) : (decodeShort prm (f ++ [hi, lo])).1 = .crcErr := by
  refine decodeShort_of_mismatch (by rw [List.length_append]; exact Nat.add_le_add_right hf 2) ?_
  rwa [checkedBytes_append, receivedCrc_append]

/-- One byte of a checksummed frame is another: a byte that is checked changes the computed checksum, and one of the last two
the received one. -/
theorem decodeShort_withChecksum_set {prm : Params} {f : List Byte} (hf : 3 ≤ f.length) {k : Nat} {a : Byte}
    (hk : k < (withChecksum f).length) (ha : a ≠ (withChecksum f)[k]) :
    (decodeShort prm ((withChecksum f).set k a)).1 = .crcErr := by
  have hsum := highByte_append_lowByte (crc16 f)
  unfold withChecksum at hk ha ⊢
  by_cases hchecked : k < f.length
  · rw [List.getElem_append_left hchecked] at ha
    rw [List.set_append_left _ _ hchecked]
    refine decodeShort_append_of_mismatch (by rwa [List.length_set]) fun hcrc => ha ?_
    exact crcFold_set_injective hchecked (hcrc.trans hsum)
  · rw [List.length_append, List.length_cons, List.length_singleton] at hk
    rw [List.getElem_append_right (Nat.not_lt.1 hchecked)] at ha
    rw [List.set_append_right _ _ (Nat.not_lt.1 hchecked)]
    obtain hlast | hlast : k - f.length = 0 ∨ k - f.length = 1 := by omega
    all_goals simp only [hlast] at ha ⊢
    · refine decodeShort_append_of_mismatch hf fun hcrc => ha ?_
      exact ((BitVec.append_left_inj _).1 (hsum.trans hcrc)).symm
    · refine decodeShort_append_of_mismatch hf fun hcrc => ha ?_
      exact ((BitVec.append_right_inj _).1 (hsum.trans hcrc)).symm

/-! #### The latch (R156) -/

theorem latchOutputs_eq (code : ResCode) : latchOutputs code = .rxResult code :: if code = .crcErr then [.nackReq] else [] := by
  unfold latchOutputs; split <;> rfl

/-- Of a valid frame of the length its length byte gives, the payload is latched, and the bytes past it stay. -/
theorem read_latch_resPayload {w : List Byte} {r : ResCode × Half × Half} (hok : r.1 = .frameOk)
    (hlen : w.length = (w.getD 2 0).toNat + 5) (s : State) (k : Nat) :
    (latch w r s).resPayload.read k = if k < (w.getD 2 0).toNat then w[3 + k]? else s.resPayload.read k := by
  have hpayload : ((w.drop 3).take (w.getD 2 0).toNat).length = (w.getD 2 0).toNat := by
    rw [List.length_take, List.length_drop]; omega
  rw [latch_resPayload, if_pos hok, Memory.read_writeBytes_zero, hpayload]
  split
  next hk => rw [List.getElem?_take_of_lt hk, List.getElem?_drop]
  next => rfl

/-- The latch of `t` holds the valid frame of an id, a type and a payload. -/
structure LatchesFrame (id ty : Byte) (p : List Byte) (t : State) : Prop where
  code : t.resCode = .frameOk
  id : t.resId = id
  type : t.resType = ty
  len : t.resLen.toNat = p.length
  payload : ∀ k, k < p.length → t.resPayload.read k = p[k]?

theorem buildShort_lengthByte {p : List Byte} (h : p.length ≤ 255) (id ty : Byte) :
    ((buildShort id ty p).getD 2 0).toNat = p.length := Nat.mod_eq_of_lt (Nat.lt_succ_of_le h)

theorem getElem?_buildShort_payload {p : List Byte} {k : Nat} (h : k < p.length) (id ty : Byte) :
    (buildShort id ty p)[3 + k]? = p[k]? := by
  rw [Nat.add_comm]; exact List.getElem?_append_left (Nat.add_lt_add_right h 3)

/-- A built frame decodes as valid (R161). -/
theorem decodeShort_buildShort {prm : Params} {p : List Byte} (hlen : p.length ≤ prm.maxShort) (hmax : prm.maxShort ≤ 255)
    (id ty : Byte) : (decodeShort prm (buildShort id ty p)).1 = .frameOk := by
  have hmatch := crc16_eq_receivedCrc_withChecksum (id :: ty :: BitVec.ofNat 8 p.length :: p)
  rw [← buildShort_eq_withChecksum] at hmatch
  rw [decodeShort_of_match (by rw [buildShort_length]; omega) hmatch, buildShort_lengthByte (hlen.trans hmax),
    buildShort_length, if_neg (by omega)]

theorem latchesFrame_latch_buildShort {p : List Byte} (h : p.length ≤ 255) {r : ResCode × Half × Half} (hok : r.1 = .frameOk)
    (id ty : Byte) (s : State) : LatchesFrame id ty p (latch (buildShort id ty p) r s) where
  code := hok
  id := rfl
  type := rfl
  len := buildShort_lengthByte h id ty
  payload k hk := by
    rw [read_latch_resPayload hok (by rw [buildShort_lengthByte h, buildShort_length]), buildShort_lengthByte h, if_pos hk,
      getElem?_buildShort_payload hk]

/-! #### `DEC.SHORT` and `RX.CLR` (R157 to R159, R161) -/

theorem exec_decShort (d : List Byte) (s : State) :
    exec (.decShort d) s = .next (setStatus .ok (latch d (decodeShort s.params d) s)) := rfl

/-- Settles O30: the built frame passes both checks, and its parts stand where the latch takes them. -/
theorem decodingAnEncodedShortFrameReproducesIt : Obligations.DecodingAnEncodedShortFrameReproducesIt := by
  intro id ty p s hlen hmax
  have hok := decodeShort_buildShort hlen hmax id ty
  obtain ⟨hcode, hid, htype, hlength, hpayload⟩ := latchesFrame_latch_buildShort (hlen.trans hmax) hok id ty s
  refine ⟨fun hroom => ⟨_, execEncShort_of_fits hlen hroom, holds_writeBytes _ _⟩,
    _, exec_decShort _ s, hcode, hid, htype, hlength, ?_, hpayload⟩
  simp [hok]

/-- Settles O31: a byte with one bit changed is another byte. -/
theorem singleBitCorruptionGivesCrcErr : Obligations.SingleBitCorruptionGivesCrcErr := by
  intro id ty p s k b hk hb
  have hcrc := decodeShort_withChecksum_set (prm := s.params) (f := id :: ty :: BitVec.ofNat 8 p.length :: p)
    (Nat.le_add_left 3 p.length) hk (xor_oneBit_ne _ hb)
  exact ⟨_, exec_decShort _ s, hcrc, by simpa using .inr hcrc⟩

/-- Settles O27: the latch's fields, the decode's cases, and the payload of a valid frame. -/
theorem decShortLatchesTheOutcome : Obligations.DecShortLatchesTheOutcome := by
  intro d s
  refine ⟨_, exec_decShort d s, ?fields, fun hshort => ?short, fun hlong => ?long, fun hok => ?payload, fun hbad => if_neg hbad⟩
  case fields => rw [setStatus_resCode, latch_resCode, ← latchOutputs_eq]; rfl
  case short =>
    have hcase := decodeShort_of_short (p := s.params) hshort
    exact ⟨congrArg Prod.fst hcase, congrArg (·.2.1) hcase, congrArg (·.2.2) hcase⟩
  case long =>
    have hchecksums := decodeShort_checksums (p := s.params) hlong
    have hrx := congrArg Prod.fst hchecksums
    have hcalc := congrArg Prod.snd hchecksums
    refine ⟨hcalc, fun hi lo hhi hlo => hrx.trans ?bytes, fun hne => ?mismatch, fun heq => ?matching⟩
    case bytes => simp [receivedCrc, List.getD_eq_getElem?_getD, hhi, hlo]
    case mismatch => exact decodeShort_of_mismatch hlong fun heq => hne (hcalc.trans (heq.trans hrx.symm))
    case matching =>
      have hcode := decodeShort_of_match (p := s.params) hlong (hcalc.symm.trans (heq.trans hrx))
      exact ⟨fun hbad => hcode.trans (if_pos hbad),
        fun ⟨hmax, hlen⟩ => hcode.trans (if_neg (not_or.2 ⟨Nat.not_lt.2 hmax, not_not.2 hlen⟩))⟩
  case payload =>
    obtain ⟨_, _, hlen⟩ := decodeShort_frameOk hok
    have hread := read_latch_resPayload hok hlen s
    exact ⟨fun k hk => (hread k).trans (if_pos hk), fun k hk => (hread k).trans (if_neg (Nat.not_lt.2 hk))⟩

/-- Settles O28. -/
theorem rxClrConsumesTheResult : Obligations.RxClrConsumesTheResult := fun _ => rfl

end Sys2Proof.Machine

/-! ### The receive window (spec/43_decoder.md R151 to R154, R159, R161) -/

namespace Sys2Proof.Machine

/-! #### Bytes (R151) -/

theorem execEvRxb_of_room {s : State} (h : s.rxCnt < s.params.rxCap) (a : Byte) : execEvRxb a s = .next (appendByte a s) :=
  if_pos h

theorem execEvRxb_of_full {s : State} (h : s.params.rxCap ≤ s.rxCnt) (a : Byte) : execEvRxb a s = .next (dropByte s) :=
  if_neg (Nat.not_lt.2 h)

/-- Settles O24. -/
theorem receivedByteIsAppendedOrDropped : Obligations.ReceivedByteIsAppendedOrDropped := by
  refine fun a s => ⟨fun hroom => ?_, fun hfull => execEvRxb_of_full hfull a⟩
  exact ⟨_, execEvRxb_of_room hroom a, rfl, Memory.read_write_same _ _ _, fun k hk => Memory.read_write_other _ _ hk.symm⟩

/-- `s` after the bytes `w` arrived in one tick at a window with room for them. -/
def afterBytes (w : List Byte) (s : State) : State :=
  { s with rxWin := s.rxWin.writeBytes s.rxCnt w, rxCnt := s.rxCnt + w.length, rxLast := s.now }

theorem afterBytes_cons (a b : Byte) (w : List Byte) (s : State) :
    afterBytes (b :: w) (appendByte a s) = afterBytes (a :: b :: w) s := by
  simp only [afterBytes, appendByte, List.length_cons, Nat.add_assoc, Nat.add_comm 1]; rfl

/-- At least one byte, so that the silence is measured from now. -/
theorem execSeq_evRxb (a : Byte) (w : List Byte) {s : State} (h : s.rxCnt + (a :: w).length ≤ s.params.rxCap) :
    execSeq ((a :: w).map .evRxb) s = .next (afterBytes (a :: w) s) := by
  induction w generalizing a s with
  | nil => exact congrArg (andThen · _) (execEvRxb_of_room h a)
  | cons b w ih =>
    rw [List.length_cons] at h
    have hfirst : exec (.evRxb a) s = .next (appendByte a s) := execEvRxb_of_room (by omega) a
    rw [List.map_cons, execSeq_cons, hfirst, andThen_next, ih b (by simpa [Nat.add_assoc, Nat.add_comm 1] using h), afterBytes_cons]

/-! #### Ticks (R152, R153) -/

theorem gapDue_iff {s : State} : gapDue s = true ↔ 0 < s.rxCnt ∧ s.params.tGap ≤ (s.now - s.rxLast).toNat := decide_eq_true_iff

theorem debDue_iff {s : State} :
    debDue s = true ↔ s.params.debPresent = true ∧ s.debRun = true ∧ s.params.tDeb ≤ (s.now - s.debStart).toNat := by
  simp [debDue, elapsed, and_assoc]

theorem tickReceive_of_due {s : State} {w : List Byte} (hdue : gapDue s = true) (hw : holds s.rxWin s.rxCnt w) :
    tickReceive s = .next (emptyWindow (latch w (classify s.params w s.rxOvf) s)) :=
  (if_pos hdue).trans (closeWindow_of_holds hw)

theorem tickReceive_of_not_due {s : State} (h : gapDue s = false) : tickReceive s = .next s := if_neg (by simp [h])

theorem tickDebounce_eq (s : State) : tickDebounce s = .next (if debDue s then debFire s else s) :=
  (apply_ite _ _ _ _).symm

/-- `t` is `s` but for the elements that the debounce half of a tick may write. -/
def DebouncedFrom (s t : State) : Prop := ∃ pend run out, t = { s with debPend := pend, debRun := run, outputs := out }

theorem debouncedFrom_self (s : State) : DebouncedFrom s s := ⟨s.debPend, s.debRun, s.outputs, rfl⟩

theorem debouncedFrom_debFire (s : State) : DebouncedFrom s (debFire s) := by
  obtain ⟨pend, hfire, _⟩ := debFire_eq s
  exact ⟨pend, false, _, hfire⟩

theorem tickDebounce_next (s : State) : ∃ t, tickDebounce s = .next t ∧ DebouncedFrom s t := by
  refine ⟨_, tickDebounce_eq s, ?_⟩
  split
  next => exact debouncedFrom_debFire s
  next => exact debouncedFrom_self s

/-- Settles O25: the two halves of a tick, each with its timer due or not. -/
theorem tickClosesTheWindowThenFiresDebounce : Obligations.TickClosesTheWindowThenFiresDebounce := by
  intro s w hw a b
  have hreceive : tickReceive a = .next b := by
    by_cases hdue : gapDue a = true
    · exact (tickReceive_of_due hdue hw).trans (congrArg _ (if_pos (gapDue_iff.1 hdue)).symm)
    · rw [tickReceive_of_not_due (by simpa using hdue)]
      exact congrArg _ (if_neg fun h => hdue (gapDue_iff.2 h)).symm
  have hkept : b.params = s.params ∧ b.debRun = s.debRun ∧ b.now = a.now ∧ b.debStart = s.debStart := by
    unfold b; split <;> exact ⟨rfl, rfl, rfl, rfl⟩
  obtain ⟨hp, hrun, hnow, hstart⟩ := hkept
  calc exec .evTick s
    _ = andThen (tickReceive a) tickDebounce := rfl
    _ = .next (if debDue b then debFire b else b) := by rw [hreceive, andThen_next, tickDebounce_eq]
    _ = _ := by simp only [debDue_iff, hp, hrun, hnow, hstart]

/-- What `CLOSE_WINDOW` leaves of a window that held `w` (R153). -/
def afterClose (w : List Byte) (s : State) : State := emptyWindow (latch w (classify s.params w s.rxOvf) s)

/-- The closing tick. -/
theorem execEvTick_of_due {s : State} {w : List Byte} (hw : holds s.rxWin s.rxCnt w) (hdue : gapDue (countTick s) = true) :
    ∃ t, execEvTick s = .next t ∧ DebouncedFrom (afterClose w (countTick s)) t := by
  unfold execEvTick
  rw [tickReceive_of_due hdue hw]
  exact tickDebounce_next _

theorem execEvTick_of_not_due {s : State} (h : gapDue (countTick s) = false) :
    ∃ t, execEvTick s = .next t ∧ DebouncedFrom (countTick s) t := by
  unfold execEvTick
  rw [tickReceive_of_not_due h]
  exact tickDebounce_next _

/-! #### Classification (R154, R159) -/

section
variable {p : Params} {w : List Byte} {ovf : Bool}

theorem classify_of_marker (h : w[1]? = some p.rxDataMarker) :
    classify p w ovf = if ovf then (.lenErr, 0#16, 0#16) else decodeShort p w := if_pos h

theorem classify_of_no_marker (h : w[1]? ≠ some p.rxDataMarker) :
    classify p w ovf =
      (if ovf = false ∧ w = ackBytes then .ackRx else if ovf = false ∧ w = nackBytes then .nackRx else .malformed, 0#16, 0#16) := by
  unfold classify
  rw [if_neg h]
  split
  next => rfl
  next => split <;> rfl

end

/-- Settles O26: the closing tick latches the classification, read off case by case. -/
theorem closedWindowIsClassified : Obligations.ClosedWindowIsClassified := by
  intro s w hw hopen hgap
  obtain ⟨_, htick, pend, run, out, rfl⟩ := execEvTick_of_due hw (gapDue_iff.2 ⟨hopen, hgap⟩)
  refine ⟨_, htick, rfl, rfl, hw.1, fun _ hmarker => ?data, fun hmarker => ?control⟩
  case data =>
    have hcase := classify_of_marker (ovf := s.rxOvf) hmarker
    refine ⟨fun hovf => ?_, fun hovf => hcase.trans (if_neg (by simp [hovf]))⟩
    rw [if_pos hovf] at hcase
    exact ⟨congrArg Prod.fst hcase, congrArg (·.2.1) hcase, congrArg (·.2.2) hcase⟩
  case control =>
    have hcase := classify_of_no_marker (ovf := s.rxOvf) hmarker
    have hcode := congrArg Prod.fst hcase
    refine ⟨congrArg (·.2.1) hcase, congrArg (·.2.2) hcase, fun hack => hcode.trans (if_pos hack),
      fun hnack => ?_, fun hother => ?_⟩
    · exact hcode.trans ((if_neg fun hack => absurd (hack.2.symm.trans hnack.2) (by decide)).trans (if_pos hnack))
    · have hack : ¬(s.rxOvf = false ∧ w = ackBytes) := by rcases hother with h | ⟨h, _⟩ <;> simp [h, ackBytes]
      have hnack : ¬(s.rxOvf = false ∧ w = nackBytes) := by rcases hother with h | ⟨_, h⟩ <;> simp [h, nackBytes]
      exact hcode.trans ((if_neg hack).trans (if_neg hnack))

/-- Settles O29: the decoder's three outcomes; and a tick that leaves an open window with no byte has closed it. -/
theorem everyDecodeHasOneOfSixOutcomes : Obligations.EveryDecodeHasOneOfSixOutcomes := by
  refine ⟨fun d s t h => ?decShort, fun s t h hopen hempty => ?closed⟩
  case decShort => rw [execDecShort_next h]; exact decodeShort_code s.params d
  case closed =>
    obtain ⟨b, hreceive, hdebounce⟩ := execEvTick_next h
    have hframe : DebouncedFrom b t := by
      rcases hdebounce with ⟨_, rfl⟩ | ⟨_, rfl⟩
      · exact debouncedFrom_self t
      · exact debouncedFrom_debFire b
    obtain ⟨_, _, _, rfl⟩ := hframe
    rcases hreceive with ⟨_, rfl⟩ | ⟨_, w, _, rfl⟩
    · exact absurd hempty (Nat.ne_of_gt hopen)
    · exact ⟨rfl, classify_ne_none _ _ _⟩

/-! #### The gap (R152, R161) -/

/-- `s` after `k` ticks that did nothing else. -/
def afterTicks (k : Nat) (s : State) : State := { s with now := s.now + BitVec.ofNat 32 k }

theorem afterTicks_zero (s : State) : afterTicks 0 s = s := by simp [afterTicks]

theorem countTick_afterTicks (k : Nat) (s : State) : countTick (afterTicks k s) = afterTicks (k + 1) s := by
  simp [countTick, afterTicks, BitVec.ofNat_add, BitVec.add_assoc]

section
variable {s t : State}

theorem DebouncedFrom.countTick (h : DebouncedFrom s t) : DebouncedFrom (countTick s) (countTick t) := by
  obtain ⟨pend, run, out, rfl⟩ := h; exact ⟨pend, run, out, rfl⟩

theorem DebouncedFrom.afterClose (h : DebouncedFrom s t) (w : List Byte) : DebouncedFrom (afterClose w s) (afterClose w t) := by
  obtain ⟨pend, run, out, rfl⟩ := h; exact ⟨pend, run, out ++ latchOutputs _, rfl⟩

theorem DebouncedFrom.trans {u : State} (h : DebouncedFrom s t) (h' : DebouncedFrom t u) : DebouncedFrom s u := by
  obtain ⟨_, _, _, rfl⟩ := h; obtain ⟨pend, run, out, rfl⟩ := h'; exact ⟨pend, run, out, rfl⟩

theorem DebouncedFrom.gapDue_eq (h : DebouncedFrom s t) : gapDue t = gapDue s := by
  obtain ⟨_, _, _, rfl⟩ := h; rfl

theorem gapDue_afterTicks (hlast : s.rxLast = s.now) {k : Nat} (hk : k < 2 ^ 32) :
    gapDue (afterTicks k s) = decide (0 < s.rxCnt ∧ s.params.tGap ≤ k) := by
  have helapsed : elapsed (afterTicks k s) s.rxLast = k := by
    rw [elapsed, hlast, afterTicks, add_sub_cancel_left]
    exact Nat.mod_eq_of_lt hk
  exact congrArg (fun n => decide (0 < s.rxCnt ∧ s.params.tGap ≤ n)) helapsed

variable (hlast : s.rxLast = s.now) (hgap : s.params.tGap < 2 ^ 31)
include hlast hgap

/-- Fewer than `P_T_GAP` ticks after the last byte leave the window open. -/
theorem execSeq_evTick_open {k : Nat} (hk : k < s.params.tGap) :
    ∃ t, execSeq (List.replicate k .evTick) s = .next t ∧ DebouncedFrom (afterTicks k s) t := by
  induction k with
  | zero => exact ⟨s, rfl, (afterTicks_zero s).symm ▸ debouncedFrom_self s⟩
  | succ k ih =>
    obtain ⟨t, hrun, hframe⟩ := ih (by omega)
    have hcounted := countTick_afterTicks k s ▸ hframe.countTick
    have hopen : gapDue (countTick t) = false := by
      rw [hcounted.gapDue_eq, gapDue_afterTicks hlast (by omega)]; simp [hk]
    obtain ⟨u, htick, hu⟩ := execEvTick_of_not_due hopen
    refine ⟨u, ?_, hcounted.trans hu⟩
    rw [List.replicate_succ', execSeq_append, hrun, andThen_next]
    exact congrArg (andThen · _) htick

/-- The tick that makes them `P_T_GAP` closes it. -/
theorem execSeq_evTick_close {w : List Byte} (hw : holds s.rxWin s.rxCnt w) (hopen : 0 < s.rxCnt) (hpos : 1 ≤ s.params.tGap) :
    ∃ t, execSeq (List.replicate s.params.tGap .evTick) s = .next t ∧
      DebouncedFrom (afterClose w (afterTicks s.params.tGap s)) t := by
  obtain ⟨k, hk⟩ := Nat.exists_eq_add_of_le' hpos
  obtain ⟨t, hrun, hframe⟩ := execSeq_evTick_open hlast hgap (k := k) (by omega)
  have hcounted := countTick_afterTicks k s ▸ hframe.countTick
  have hdue : gapDue (countTick t) = true := by
    rw [hcounted.gapDue_eq, gapDue_afterTicks hlast (by omega)]; simp [hk, hopen]
  have hwindow : holds t.rxWin t.rxCnt w := by obtain ⟨_, _, _, rfl⟩ := hframe; exact hw
  obtain ⟨u, htick, hu⟩ := execEvTick_of_due hwindow hdue
  refine ⟨u, ?_, hk ▸ (hcounted.afterClose w).trans hu⟩
  rw [hk, List.replicate_succ', execSeq_append, hrun, andThen_next]
  exact congrArg (andThen · _) htick

end

/-- Any bytes that fit an empty window, followed by `P_T_GAP` ticks, are classified and latched as a whole. -/
theorem execSeq_message {s : State} {w : List Byte} (hwf : s.params.wf) (hempty : s.rxCnt = 0) (hw : w ≠ [])
    (hfits : w.length ≤ s.params.rxCap) :
    ∃ t, execSeq (w.map .evRxb ++ List.replicate s.params.tGap .evTick) s = .next t ∧
      DebouncedFrom (afterClose w (afterTicks s.params.tGap (afterBytes w s))) t := by
  obtain ⟨_, _, _, ⟨hpos, hgap⟩, _⟩ := hwf
  have hbytes : execSeq (w.map .evRxb) s = .next (afterBytes w s) := by
    obtain ⟨a, w, rfl⟩ := List.exists_cons_of_ne_nil hw
    exact execSeq_evRxb a w (by rwa [hempty, Nat.zero_add])
  have hcnt : (afterBytes w s).rxCnt = w.length := by rw [afterBytes, hempty, Nat.zero_add]
  have hwindow : holds (afterBytes w s).rxWin (afterBytes w s).rxCnt w := by
    rw [hcnt, afterBytes, hempty]; exact holds_writeBytes s.rxWin w
  obtain ⟨t, hticks, ht⟩ := execSeq_evTick_close (s := afterBytes w s) rfl hgap hwindow (hcnt ▸ List.length_pos_iff.2 hw) hpos
  exact ⟨t, by rw [execSeq_append, hbytes]; exact hticks, ht⟩

/-- Settles O32: the bytes are classified as a data frame, and its decode is the frame that was built. -/
theorem receivedFrameIsLatchedAfterTheGap : Obligations.ReceivedFrameIsLatchedAfterTheGap := by
  intro id p s hwf hlen hempty hovf
  have hmax : s.params.maxShort ≤ 255 := hwf.1
  have hfits : (buildShort id s.params.rxDataMarker p).length ≤ s.params.rxCap := by
    rw [buildShort_length]; exact Nat.add_le_add_right hlen 5
  obtain ⟨_, hrun, _, _, _, rfl⟩ := execSeq_message hwf hempty (buildShort_ne_nil _ _ _) hfits
  have hok : (classify s.params (buildShort id s.params.rxDataMarker p) s.rxOvf).1 = .frameOk := by
    rw [classify_of_marker rfl, if_neg (by simp [hovf])]
    exact decodeShort_buildShort hlen hmax _ _
  obtain ⟨hcode, hid, htype, hlength, hpayload⟩ :=
    latchesFrame_latch_buildShort (hlen.trans hmax) hok id _
      (afterTicks s.params.tGap (afterBytes (buildShort id s.params.rxDataMarker p) s))
  exact ⟨_, hrun, hcode, rfl, hid, htype, hlength, hpayload, rfl⟩

end Sys2Proof.Machine

/-! ### The extended-frame assembler (spec/44_ext_assembler.md) -/

namespace Sys2Proof.Machine

/-! #### One segment (R181, R182) -/

/-- The state that an accepted segment leaves. -/
def acceptSegment (total current : Byte) (d : List Byte) (s : State) : State :=
  setStatus .ok (advanceAssembly total current (appendSegment d (startAssembly total current s)))

theorem startAssembly_extLen (total current : Byte) (s : State) :
    (startAssembly total current s).extLen = if current.toNat = 1 then 0 else s.extLen := by
  unfold startAssembly; split <;> rfl

/-- A segment in sequence finds its own total, whether it sets it or was awaited with it. -/
theorem startAssembly_eq {total current : Byte} {s : State} (h : badSequence total current s = false) :
    startAssembly total current s =
      { s with extLen := if current.toNat = 1 then 0 else s.extLen, extTotal := total,
               extDone := if current.toNat = 1 then false else s.extDone } := by
  unfold startAssembly
  split
  case isTrue hfirst => rfl
  case isFalse hlater =>
    obtain ⟨_, _, rfl⟩ := (badSequence_eq_false.1 h).resolve_left hlater
    rfl

theorem advanceAssembly_eq (total current : Byte) (s : State) :
    advanceAssembly total current s =
      { s with extAsm := decide (current ≠ total), extDone := if current = total then true else s.extDone,
               extNext := if current = total then 0 else current.toNat + 1,
               outputs := s.outputs ++ if current = total then [.extDone (len16 s.extLen)] else [] } := by
  unfold advanceAssembly
  by_cases hlast : current = total
  · simp [hlast, emit]
  · simp [hlast]

section
variable {total current : Byte} {d : List Byte} {s : State}

theorem exec_extSeg_of_badHeader (h : badHeader total current = true) :
    exec (.extSeg total current d) s = .next (setStatus .extHdr (extAbort s)) := if_pos h

variable (hheader : badHeader total current = false)
include hheader

theorem exec_extSeg_of_badSequence (h : badSequence total current s = true) :
    exec (.extSeg total current d) s = .next (setStatus .extSeq (extAbort s)) :=
  (if_neg (by simp [hheader])).trans (if_pos h)

variable (hseq : badSequence total current s = false)
include hseq

/-- A possible segment in sequence: only the room is left to decide. -/
theorem exec_extSeg_of_inSequence :
    exec (.extSeg total current d) s =
      if s.params.maxExt < (if current.toNat = 1 then 0 else s.extLen) + d.length then .next (setStatus .extOvf (extAbort s))
      else .next (acceptSegment total current d s) := by
  rw [← startAssembly_extLen total current s, ← extAbort_startAssembly total current s]
  exact (if_neg (by simp [hheader])).trans (if_neg (by simp [hseq]))

theorem exec_extSeg_of_overflow (h : s.params.maxExt < (if current.toNat = 1 then 0 else s.extLen) + d.length) :
    exec (.extSeg total current d) s = .next (setStatus .extOvf (extAbort s)) :=
  (exec_extSeg_of_inSequence hheader hseq).trans (if_pos h)

theorem exec_extSeg_of_fits (h : (if current.toNat = 1 then 0 else s.extLen) + d.length ≤ s.params.maxExt) :
    exec (.extSeg total current d) s = .next (acceptSegment total current d s) :=
  (exec_extSeg_of_inSequence hheader hseq).trans (if_neg (Nat.not_lt.2 h))

end

/-- Settles O36: the three failures in their order, each an `EXT_ABORT` and a status. -/
theorem extSegRejectsAndAborts : Obligations.ExtSegRejectsAndAborts := by
  refine fun total current d s => ⟨fun h => ?header, fun hlo hhi h => ?sequence, fun hlo hhi hseq h => ?overflow⟩
  case header => exact exec_extSeg_of_badHeader (by simpa [badHeader] using h)
  case sequence =>
    have hlater : current.toNat ≠ 1 := by omega
    exact exec_extSeg_of_badSequence (badHeader_eq_false.2 ⟨by omega, hhi⟩) (decide_eq_true ⟨hlater, h⟩)
  case overflow => exact exec_extSeg_of_overflow (badHeader_eq_false.2 ⟨hlo, hhi⟩) (badSequence_eq_false.2 hseq) h

/-- Every field after an accepted segment. -/
theorem acceptSegment_eq {total current : Byte} {s : State} (h : badSequence total current s = false) (d : List Byte) :
    acceptSegment total current d s =
      { s with extBuf := s.extBuf.writeBytes (if current.toNat = 1 then 0 else s.extLen) d,
               extLen := (if current.toNat = 1 then 0 else s.extLen) + d.length, extTotal := total,
               extAsm := decide (current ≠ total),
               extDone := if current = total then true else if current.toNat = 1 then false else s.extDone,
               extNext := if current = total then 0 else current.toNat + 1, cmdStatus := .ok,
               outputs := s.outputs ++ if current = total then
                 [.extDone (len16 ((if current.toNat = 1 then 0 else s.extLen) + d.length))] else [] } := by
  rw [acceptSegment, startAssembly_eq h, advanceAssembly_eq]; rfl

/-- Settles O37: the fields of an accepted segment, and its bytes in the buffer. -/
theorem extSegAcceptsTheNextSegment : Obligations.ExtSegAcceptsTheNextSegment := by
  intro total current d s start hlo hhi hnext hfits
  have hseq : badSequence total current s = false := badSequence_eq_false.2 hnext
  refine ⟨_, exec_extSeg_of_fits (badHeader_eq_false.2 ⟨hlo, hhi⟩) hseq hfits, ?_⟩
  rw [acceptSegment_eq hseq]
  exact ⟨rfl, Memory.read_writeBytes_inside s.extBuf start d, Memory.read_writeBytes_outside s.extBuf start d⟩

/-! #### A stream of segments (R32, R33, R183, R184) -/

/-- The first `k` of `total` segments have left their bytes `w`, and the next segment is accepted: at first in any state, later
where the assembly waits for it. -/
def Awaits (total : Byte) (k : Nat) (w : List Byte) (s : State) : Prop :=
  (k = 0 ∧ w = []) ∨
  (0 < k ∧ s.extAsm = true ∧ s.extNext = k + 1 ∧ s.extTotal = total ∧ holds s.extBuf s.extLen w)

/-- In `t` the payload `w` is complete, and was announced once since the outputs `before`. -/
def Completes (w : List Byte) (before : List Output) (t : State) : Prop :=
  t.extDone = true ∧ t.extAsm = false ∧ t.cmdStatus = .ok ∧ holds t.extBuf t.extLen w ∧
    t.outputs = before ++ [.extDone (len16 w.length)]

section
variable {total : Byte} {k : Nat} {w d : List Byte} {s : State}

/-- A segment number within the total is not cut to 8 bits. -/
theorem toNat_segmentNumber (hk : k < total.toNat) : (BitVec.ofNat 8 (k + 1)).toNat = k + 1 := by
  rw [BitVec.toNat_ofNat]; omega

theorem segmentNumber_eq_total (hk : k < total.toNat) : BitVec.ofNat 8 (k + 1) = total ↔ k + 1 = total.toNat := by
  rw [← BitVec.toNat_inj, toNat_segmentNumber hk]

theorem Awaits.inSequence (h : Awaits total k w s) (hk : k < total.toNat) :
    badSequence total (BitVec.ofNat 8 (k + 1)) s = false := by
  rw [badSequence_eq_false, toNat_segmentNumber hk]
  rcases h with ⟨rfl, _⟩ | ⟨_, hasm, hnext, htotal, _⟩
  · exact .inl rfl
  · exact .inr ⟨hasm, hnext.symm, htotal.symm⟩

/-- The bytes that the next segment's follow. -/
theorem Awaits.holds_start (h : Awaits total k w s) : holds s.extBuf (if k + 1 = 1 then 0 else s.extLen) w := by
  rcases h with ⟨rfl, rfl⟩ | ⟨hpos, _, _, _, hw⟩
  · exact ⟨rfl, nofun⟩
  · rwa [if_neg (by omega)]

variable (h : Awaits total k w s) (hk : k < total.toNat)
include h hk

theorem Awaits.exec_extSeg (hfits : (w ++ d).length ≤ s.params.maxExt) :
    exec (.extSeg total (BitVec.ofNat 8 (k + 1)) d) s = .next (acceptSegment total (BitVec.ofNat 8 (k + 1)) d s) := by
  refine exec_extSeg_of_fits (badHeader_eq_false.2 ?_) (h.inSequence hk) ?_
  · rw [toNat_segmentNumber hk]; omega
  · rwa [toNat_segmentNumber hk, ← h.holds_start.1, ← List.length_append]

/-- A segment before the last leaves its successor awaited, and announces nothing. -/
theorem Awaits.acceptSegment_other (hother : k + 1 ≠ total.toNat) (d : List Byte) :
    Awaits total (k + 1) (w ++ d) (acceptSegment total (BitVec.ofNat 8 (k + 1)) d s) ∧
      (acceptSegment total (BitVec.ofNat 8 (k + 1)) d s).outputs = s.outputs := by
  have hne : BitVec.ofNat 8 (k + 1) ≠ total := mt (segmentNumber_eq_total hk).1 hother
  rw [acceptSegment_eq (h.inSequence hk), toNat_segmentNumber hk]
  exact ⟨.inr ⟨k.succ_pos, decide_eq_true hne, if_neg hne, rfl, holds_append h.holds_start d⟩, by simp [hne]⟩

/-- The last segment completes the payload. -/
theorem Awaits.acceptSegment_last (hlast : k + 1 = total.toNat) (d : List Byte) :
    Completes (w ++ d) s.outputs (acceptSegment total (BitVec.ofNat 8 (k + 1)) d s) := by
  have heq : BitVec.ofNat 8 (k + 1) = total := (segmentNumber_eq_total hk).2 hlast
  have hheld := holds_append h.holds_start d
  rw [acceptSegment_eq (h.inSequence hk), toNat_segmentNumber hk]
  refine ⟨if_pos heq, by simp [heq], rfl, hheld, ?_⟩
  rw [hheld.1]
  simp [heq]

end

/-- The rest of a stream completes the payload, by induction on the segments still to come. -/
theorem Awaits.execSeq_segments {total : Byte} {k : Nat} {w : List Byte} {segs : List (List Byte)} {s : State}
    (h : Awaits total k w s) (hk : k < total.toNat) (htotal : k + segs.length = total.toNat)
    (hfits : (w ++ segs.flatten).length ≤ s.params.maxExt) :
    ∃ t, execSeq (segs.mapIdx fun i d => .extSeg total (BitVec.ofNat 8 (k + i + 1)) d) s = .next t ∧
      Completes (w ++ segs.flatten) s.outputs t := by
  induction segs generalizing k w s with
  | nil => exact absurd htotal (Nat.ne_of_lt hk)
  | cons d segs ih =>
    rw [List.flatten_cons, ← List.append_assoc] at hfits ⊢
    have hexec := h.exec_extSeg hk (d := d) (by rw [List.length_append] at hfits; omega)
    rw [List.mapIdx_cons, execSeq_cons, Nat.add_zero, hexec, andThen_next]
    rw [List.length_cons] at htotal
    by_cases hlast : k + 1 = total.toNat
    · obtain rfl : segs = [] := List.length_eq_zero_iff.1 (by omega)
      exact ⟨_, rfl, by simpa using h.acceptSegment_last hk hlast d⟩
    · obtain ⟨hnext, houtputs⟩ := h.acceptSegment_other hk hlast d
      rw [← exec_params hexec] at hfits
      obtain ⟨t, hrun, ht⟩ := ih hnext (by omega) (by omega) hfits
      refine ⟨t, ?_, houtputs ▸ ht⟩
      simpa only [Nat.add_right_comm k, ← Nat.add_assoc] using hrun

/-- Settles O38: the first segment is awaited in any state. -/
theorem inOrderSegmentsAssembleThePayload : Obligations.InOrderSegmentsAssembleThePayload := by
  intro segs s hpos hmax hfits
  have htotal : (BitVec.ofNat 8 segs.length).toNat = segs.length := by rw [BitVec.toNat_ofNat]; omega
  have hfirst : Awaits (BitVec.ofNat 8 segs.length) 0 [] s := .inl ⟨rfl, rfl⟩
  obtain ⟨t, hrun, ht⟩ := hfirst.execSeq_segments (by omega) (by omega) hfits
  exact ⟨t, by simpa only [Nat.zero_add] using hrun, ht⟩

end Sys2Proof.Machine

/-! ### The debounce engine (spec/45_debounce.md) -/

namespace Sys2Proof.Machine

/-! #### Edges (R201, R202) -/

theorem execEvEdge_of_pin {pin : Byte} {s : State} (hdeb : s.params.debPresent = true) (hpin : pin.toNat < s.params.nPins)
    (level : Bool) :
    execEvEdge pin level s = .next (if pinBit s.debPend pin.toNat then bounceEdge pin.toNat (setPhys pin.toNat level s)
      else captureEdge pin.toNat level (setPhys pin.toNat level s)) := by
  unfold execEvEdge
  rw [if_neg (by simp [hdeb]), if_neg (Nat.not_le.2 hpin)]
  exact (apply_ite _ _ _ _).symm

theorem pinBit_setPin_of_lt (v : Word) {p : Nat} (hp : p < 32) (b : Bool) (q : Nat) :
    pinBit (setPin v p b) q = if q = p then b else pinBit v q := by
  rw [pinBit_setPin]; simp only [hp, and_true]

/-- A bounce writes the pending bit, and the timer where the parameter says so (R201). -/
theorem bounceEdge_eq (p : Nat) (s : State) :
    bounceEdge p s = { s with
      debPend := setPin s.debPend p false
      debRun := if s.params.debRestartOnBounce then true else s.debRun
      debStart := if s.params.debRestartOnBounce then s.now else s.debStart } := by
  unfold bounceEdge
  split <;> rfl

/-- Settles O40: a bounce where the pin is pending, a capture where it is not. -/
theorem edgeIsCapturedOrBounced : Obligations.EdgeIsCapturedOrBounced := by
  intro pin level s hdeb hpin hpins
  have hbit := fun v => pinBit_setPin_of_lt v (Nat.lt_of_lt_of_le hpin hpins)
  have htoggled (p : Nat) : pinBit (setPin s.debPend pin.toNat (!pinBit s.debPend pin.toNat)) p =
      if p = pin.toNat then !pinBit s.debPend p else pinBit s.debPend p := by
    rw [hbit]; exact ite_congr rfl (fun hp => by rw [hp]) fun _ => rfl
  have hedge := execEvEdge_of_pin hdeb hpin level
  cases hpend : pinBit s.debPend pin.toNat with
  | true =>
    rw [hpend, if_pos rfl, bounceEdge_eq] at hedge
    rw [hpend] at htoggled
    refine ⟨_, hedge, ?_, hbit _ _, htoggled, fun p => (if_neg ?_).symm⟩
    · cases hrestart : s.params.debRestartOnBounce <;> simp [setPhys, hrestart]
    · rintro ⟨rfl, hidle⟩; exact absurd (hpend.symm.trans hidle) nofun
  | false =>
    rw [hpend, if_neg Bool.false_ne_true] at hedge
    rw [hpend] at htoggled
    refine ⟨_, hedge, rfl, hbit _ _, htoggled, fun p => ?_⟩
    have hcaptured : p = pin.toNat ∧ pinBit s.debPend p = false ↔ p = pin.toNat :=
      and_iff_left_of_imp (by rintro rfl; exact hpend)
    simp only [hcaptured]; exact hbit _ _ p

/-! #### Ticks (R203, R204) -/

/-- What the receive half of a tick leaves to the debounce half: DEB's state, and `received` appended to the outputs. -/
structure ReceivesOnly (a : State) (received : List Output) (b : State) : Prop where
  params : b.params = a.params
  now : b.now = a.now
  debLevel : b.debLevel = a.debLevel
  debPend : b.debPend = a.debPend
  debRun : b.debRun = a.debRun
  debStart : b.debStart = a.debStart
  pinPhys : b.pinPhys = a.pinPhys
  outputs : b.outputs = a.outputs ++ received
  noButton : ∀ p pressed, .button p pressed ∉ received
  closed : a.rxCnt = 0 → received = []

theorem receivesOnly_self (a : State) : ReceivesOnly a [] a :=
  ⟨rfl, rfl, rfl, rfl, rfl, rfl, rfl, (List.append_nil _).symm, nofun, fun _ => rfl⟩

theorem receivesOnly_afterClose {a : State} (hopen : 0 < a.rxCnt) (w : List Byte) :
    ReceivesOnly a (latchOutputs (classify a.params w a.rxOvf).1) (afterClose w a) :=
  ⟨rfl, rfl, rfl, rfl, rfl, rfl, rfl, rfl, button_notMem_latchOutputs _, fun hempty => absurd hempty (Nat.ne_of_gt hopen)⟩

theorem tickReceive_receivesOnly {a : State} (h : valuedBelow a.rxWin a.rxCnt) :
    ∃ received b, tickReceive a = .next b ∧ ReceivesOnly a received b := by
  by_cases hdue : gapDue a = true
  · obtain ⟨w, hw⟩ := holds_of_valuedBelow h
    exact ⟨_, _, tickReceive_of_due hdue hw, receivesOnly_afterClose (gapDue_iff.1 hdue).1 w⟩
  · exact ⟨_, _, tickReceive_of_not_due (by simpa using hdue), receivesOnly_self a⟩

section
variable {a b s : State} {received : List Output}

theorem ReceivesOnly.debDue_eq (h : ReceivesOnly a received b) : debDue b = debDue a := by
  unfold debDue elapsed; rw [h.params, h.now, h.debRun, h.debStart]

theorem ReceivesOnly.buttonEvents_eq (h : ReceivesOnly a received b) (ps : List Nat) : buttonEvents b ps = buttonEvents a ps := by
  simp only [buttonEvents, h.debPend, h.pinPhys, h.debLevel]

/-- Whether the debounce timer fires is settled before the receive half runs. -/
theorem execEvTick_eq (h : valuedBelow s.rxWin s.rxCnt) :
    ∃ received b, execEvTick s = .next (if debDue (countTick s) then debFire b else b) ∧
      ReceivesOnly (countTick s) received b := by
  obtain ⟨received, b, hreceive, hb⟩ := tickReceive_receivesOnly (a := countTick s) h
  refine ⟨received, b, ?_, hb⟩
  rw [← hb.debDue_eq, ← tickDebounce_eq, execEvTick, hreceive, andThen_next]

end

/-- Settles O41: `DEB_FIRE` after a receive half that leaves DEB's state to it. -/
theorem confirmationEmitsInPinOrder : Obligations.ConfirmationEmitsInPinOrder := by
  intro s hvalued hdeb hrun hdue
  obtain ⟨received, b, htick, hb⟩ := execEvTick_eq hvalued
  obtain ⟨pend, hfire, hpend⟩ := debFire_eq b
  have hfires : debDue (countTick s) = true := debDue_iff.2 ⟨hdeb, hrun, hdue⟩
  rw [if_pos hfires, hfire, hb.buttonEvents_eq, hb.outputs, hb.params] at htick
  rw [hb.params, hb.debPend] at hpend
  exact ⟨_, received, htick, hb.closed, hb.noButton, rfl, hpend, rfl, hb.debLevel, hb.debStart, hb.pinPhys⟩

/-! #### Bursts of edges (R207) -/

theorem filter_isButtonOf_received {received : List Output} (h : ∀ p pressed, .button p pressed ∉ received) (p : Nat) :
    received.filter (isButtonOf p) = [] := by
  refine List.filter_eq_nil_iff.2 fun e he => ?_
  cases e with
  | button q pressed => exact absurd he (h q pressed)
  | read | txReady | rxResult | nackReq | extDone => exact Bool.false_ne_true

/-- A pin that exists gives at most one event at expiry. -/
theorem filter_isButtonOf_buttonEvents (s : State) {p n : Nat} (hp : p < n) :
    (buttonEvents s (List.range n)).filter (isButtonOf p) =
      if pinBit s.debPend p && (pinBit s.pinPhys p == pinBit s.debLevel p) then [.button p (!pinBit s.debLevel p)] else [] := by
  have hone : (List.range n).filter (· == p) = [p] := by
    rw [List.filter_beq, List.count_eq_one_of_mem List.nodup_range (List.mem_range.2 hp)]; rfl
  have hpin : (isButtonOf p ∘ fun q => Output.button q (!pinBit s.debLevel q)) = (· == p) := rfl
  rw [buttonEvents, List.filter_map, hpin, List.filter_comm, hone, List.filter_singleton, Bool.cond_eq_ite]
  split <;> rfl

/-- `is` runs from `s` to a state with `P`, and the events of pin `p` among what it emits are `es`. -/
def Reports (p : Nat) (is : List Instr) (s : State) (es : List Output) (P : State → Prop) : Prop :=
  ∃ t new, execSeq is s = .next t ∧ t.outputs = s.outputs ++ new ∧ new.filter (isButtonOf p) = es ∧ P t

section
variable {p : Nat} {s : State} {P Q : State → Prop}

theorem reports_nil (h : P s) : Reports p [] s [] P := ⟨s, [], rfl, (List.append_nil _).symm, rfl, h⟩

theorem reports_exec {i : Instr} {t : State} {new : List Output} (hexec : exec i s = .next t)
    (houtputs : t.outputs = s.outputs ++ new) (h : P t) : Reports p [i] s (new.filter (isButtonOf p)) P :=
  ⟨t, new, by rw [execSeq_cons, hexec]; rfl, houtputs, rfl, h⟩

theorem Reports.append {is js : List Instr} {es fs : List Output} (h : Reports p is s es P)
    (hnext : ∀ t, P t → Reports p js t fs Q) : Reports p (is ++ js) s (es ++ fs) Q := by
  obtain ⟨t, new, hrun, houtputs, rfl, ht⟩ := h
  obtain ⟨u, more, hrun', houtputs', rfl, hu⟩ := hnext t ht
  refine ⟨u, new ++ more, ?_, ?_, List.filter_append _ _, hu⟩
  · rw [execSeq_append, hrun, andThen_next, hrun']
  · rw [houtputs', houtputs, List.append_assoc]

theorem Reports.append_of_silent {is js : List Instr} {es : List Output} (h : Reports p is s [] P)
    (hnext : ∀ t, P t → Reports p js t es Q) : Reports p (is ++ js) s es Q := h.append hnext

/-- A tick at which the debounce timer is not due. -/
theorem reports_tick_waiting (hs : s.Inv) (hdue : debDue (countTick s) = false)
    (h : ∀ t received, t.Inv → ReceivesOnly (countTick s) received t → P t) : Reports p [.evTick] s [] P := by
  obtain ⟨received, t, htick, ht⟩ := execEvTick_eq hs.rxWinValued
  rw [if_neg (by simp [hdue])] at htick
  exact filter_isButtonOf_received ht.noButton p ▸ reports_exec htick ht.outputs (h t received (execEvTick_inv hs htick) ht)

end

/-- In a deployment `prm`, the pin is not pending. -/
structure Settled (prm : Params) (p : Nat) (s : State) : Prop where
  inv : s.Inv
  params : s.params = prm
  idle : pinBit s.debPend p = false

/-- In a deployment `prm`, the pin is pending at `level`, `k` ticks after the timer started. -/
structure Confirming (prm : Params) (p : Nat) (level : Bool) (k : Nat) (s : State) : Prop where
  inv : s.Inv
  params : s.params = prm
  pending : pinBit s.debPend p = true
  captured : pinBit s.debLevel p = level
  waited : elapsed s s.debStart = k

theorem State.Inv.nPins_le {s : State} (hs : s.Inv) : s.params.nPins ≤ 32 := by
  obtain ⟨_, _, _, _, _, _, ⟨_, hpins⟩, _⟩ := hs.paramsWf; exact hpins

theorem State.Inv.tDeb_lt {s : State} (hs : s.Inv) : s.params.tDeb < 2 ^ 31 := by
  obtain ⟨_, _, _, _, ⟨_, hdeb⟩, _⟩ := hs.paramsWf; exact hdeb

section
variable {prm : Params} {p : Nat} {s : State}

/-- The tick at which the debounce timer is due, seen from one pin. -/
theorem reports_tick_due (hs : s.Inv) (hp : p < s.params.nPins) (hdue : debDue (countTick s) = true) :
    Reports p [.evTick] s (if pinBit s.debPend p then [.button p (!pinBit s.debLevel p)] else []) (Settled s.params p) := by
  obtain ⟨hdeb, hrun, hwaited⟩ := debDue_iff.1 hdue
  obtain ⟨t, received, htick, -, hnobutton, houtputs, hpend, -⟩ :=
    confirmationEmitsInPinOrder s hs.rxWinValued hdeb hrun hwaited
  have hsettled : Settled s.params p t := ⟨exec_inv hs htick, exec_params htick, by rw [hpend, if_pos hp]⟩
  have hevents : (received ++ buttonEvents s (List.range s.params.nPins)).filter (isButtonOf p) =
      if pinBit s.debPend p then [.button p (!pinBit s.debLevel p)] else [] := by
    rw [List.filter_append, filter_isButtonOf_received hnobutton, List.nil_append, filter_isButtonOf_buttonEvents s hp]
    exact if_congr (by simpa using fun hpending => (hs.pendLevel p (hp.trans_le hs.nPins_le) hpending).symm) rfl rfl
  exact hevents ▸ reports_exec htick (houtputs.trans (List.append_assoc _ _ _)) hsettled

theorem Settled.tick (h : Settled prm p s) (hp : p < prm.nPins) : Reports p [.evTick] s [] (Settled prm p) := by
  obtain ⟨hs, rfl, hidle⟩ := h
  cases hdue : debDue (countTick s) with
  | true => simpa [hidle] using reports_tick_due hs hp hdue
  | false =>
    exact reports_tick_waiting hs hdue fun t _ ht hframe => ⟨ht, hframe.params, hframe.debPend.symm ▸ hidle⟩

theorem Settled.ticks (h : Settled prm p s) (hp : p < prm.nPins) (n : Nat) :
    Reports p (List.replicate n .evTick) s [] (Settled prm p) := by
  induction n generalizing s with
  | zero => exact reports_nil h
  | succ n ih => exact (h.tick hp).append_of_silent fun t ht => ih ht

theorem elapsed_countTick {start : Word} (h : elapsed s start + 1 < 2 ^ 32) :
    elapsed (countTick s) start = elapsed s start + 1 := by
  have hnext : (countTick s).now - start = s.now - start + 1#32 := add_sub_right_comm _ _ _
  rw [elapsed, hnext, BitVec.toNat_add]
  exact Nat.mod_eq_of_lt h

variable {level : Bool} {k : Nat}

/-- A pending pin keeps the timer running, and the timer is not overdue (R205). -/
theorem Confirming.debRun (h : Confirming prm p level k s) : s.debRun = true :=
  h.inv.pendRuns fun hz => absurd (hz ▸ h.pending) (by simp [pinBit])

theorem Confirming.waited_lt (h : Confirming prm p level k s) : k < prm.tDeb :=
  h.params ▸ h.waited ▸ h.inv.debNotOverdue h.debRun

theorem Confirming.elapsed_countTick (h : Confirming prm p level k s) : elapsed (countTick s) s.debStart = k + 1 := by
  have hk := h.waited_lt
  have hdeb := h.params ▸ h.inv.tDeb_lt
  obtain rfl := h.waited
  exact Machine.elapsed_countTick (by omega)

theorem Confirming.debDue_iff (h : Confirming prm p level k s) : debDue (countTick s) = true ↔ prm.tDeb ≤ k + 1 := by
  have hdeb : s.params.debPresent = true :=
    Bool.eq_true_of_not_eq_false fun habsent => absurd (h.debRun.symm.trans (h.inv.absentIdle habsent)) nofun
  rw [← h.elapsed_countTick, ← h.params]
  exact Machine.debDue_iff.trans ⟨fun ⟨_, _, hdue⟩ => hdue, fun hdue => ⟨hdeb, h.debRun, hdue⟩⟩

theorem Confirming.tick_waiting (h : Confirming prm p level k s) (hk : k + 1 < prm.tDeb) :
    Reports p [.evTick] s [] (Confirming prm p level (k + 1)) := by
  refine reports_tick_waiting h.inv (Bool.eq_false_iff.2 (mt h.debDue_iff.1 (Nat.not_le.2 hk))) fun t _ ht hframe => ?_
  refine ⟨ht, hframe.params.trans h.params, hframe.debPend ▸ h.pending, hframe.debLevel ▸ h.captured, ?_⟩
  rw [← h.elapsed_countTick, elapsed, hframe.now, hframe.debStart]; rfl

theorem Confirming.tick_due (h : Confirming prm p level k s) (hp : p < prm.nPins) (hk : prm.tDeb ≤ k + 1) :
    Reports p [.evTick] s [.button p (!level)] (Settled prm p) := by
  have hdue := h.debDue_iff.2 hk
  obtain ⟨hs, rfl, hpending, rfl, _⟩ := h
  simpa [hpending] using reports_tick_due hs hp hdue

/-- Fewer than `P_T_DEB` ticks confirm nothing. -/
theorem Confirming.ticks (h : Confirming prm p level k s) {n : Nat} (hn : k + n < prm.tDeb) :
    Reports p (List.replicate n .evTick) s [] (Confirming prm p level (k + n)) := by
  induction n generalizing k s with
  | zero => exact reports_nil h
  | succ n ih =>
    rw [← Nat.add_assoc, Nat.add_right_comm] at hn ⊢
    exact (h.tick_waiting (by omega)).append_of_silent fun t ht => ih ht (by omega)

/-- The tick that makes them `P_T_DEB` reports the captured level, and later ones report nothing. -/
theorem Confirming.quiet (h : Confirming prm p level k s) (hp : p < prm.nPins) {n : Nat} (hn : prm.tDeb ≤ k + n) :
    Reports p (List.replicate n .evTick) s [.button p (!level)] (Settled prm p) := by
  induction n generalizing k s with
  | zero => exact absurd h.waited_lt (Nat.not_lt.2 hn)
  | succ n ih =>
    by_cases hdue : prm.tDeb ≤ k + 1
    · exact (h.tick_due hp hdue).append fun t ht => ht.ticks hp n
    · exact (h.tick_waiting (by omega)).append_of_silent fun t ht => ih ht (by omega)

end

section
variable {prm : Params} {pin : Byte} {s : State} (hdeb : prm.debPresent = true) (hpin : pin.toNat < prm.nPins)
include hdeb hpin

/-- An edge on a settled pin is captured (R201). -/
theorem Settled.edge (h : Settled prm pin.toNat s) (level : Bool) :
    Reports pin.toNat [.evEdge pin level] s [] (Confirming prm pin.toNat level 0) := by
  obtain ⟨hs, rfl, hidle⟩ := h
  obtain ⟨t, hexec, hframe, -, hpend, hlevel⟩ := edgeIsCapturedOrBounced pin level s hdeb hpin hs.nPins_le
  have houtputs : t.outputs = s.outputs ++ [] := (congrArg State.outputs hframe).trans (List.append_nil _).symm
  have hstart : t.debStart = t.now := by rw [hframe, hidle]; rfl
  refine reports_exec hexec houtputs ⟨exec_inv hs hexec, exec_params hexec, ?_, ?_, by rw [hstart, elapsed_now]⟩
  · rw [hpend, if_pos rfl, hidle]; rfl
  · rw [hlevel, if_pos ⟨rfl, hidle⟩]

/-- An edge on a pending pin is a bounce, whatever it does to the timer (R201). -/
theorem Confirming.edge {level : Bool} {k : Nat} (h : Confirming prm pin.toNat level k s) (next : Bool) :
    Reports pin.toNat [.evEdge pin next] s [] (Settled prm pin.toNat) := by
  obtain ⟨hs, rfl, hpending, -⟩ := h
  obtain ⟨t, hexec, hframe, -, hpend, -⟩ := edgeIsCapturedOrBounced pin next s hdeb hpin hs.nPins_le
  have houtputs : t.outputs = s.outputs ++ [] := (congrArg State.outputs hframe).trans (List.append_nil _).symm
  refine reports_exec hexec houtputs ⟨exec_inv hs hexec, exec_params hexec, ?_⟩
  rw [hpend, if_pos rfl, hpending]; rfl

/-- Each edge of a burst turns a settled pin into a pending one and back, and only the quiet after the last can confirm it: from a
settled pin the burst is reported if its edges are odd in number, from a pending one if they are even. -/
theorem reports_edgeBurst {quiet : Nat} (hquiet : prm.tDeb ≤ quiet) {gaps : List Nat} (hgaps : ∀ g ∈ gaps, g < prm.tDeb)
    (level : Bool) (s : State) :
    (Settled prm pin.toNat s → Reports pin.toNat (edgeBurst pin level (gaps ++ [quiet])) s
      (if gaps.length % 2 = 0 then [.button pin.toNat (!level)] else []) (Settled prm pin.toNat)) ∧
    (∀ k, Confirming prm pin.toNat (!level) k s → Reports pin.toNat (edgeBurst pin level (gaps ++ [quiet])) s
      (if gaps.length % 2 = 0 then [] else [.button pin.toNat level]) (Settled prm pin.toNat)) := by
  induction gaps generalizing level s with
  | nil =>
    refine ⟨fun h => ?settled, fun k h => ?pending⟩
    case settled =>
      exact (h.edge hdeb hpin level).append_of_silent fun t ht => (ht.quiet hpin (by omega)).append fun u hu => reports_nil hu
    case pending =>
      exact (h.edge hdeb hpin level).append_of_silent fun t ht => (ht.ticks hpin quiet).append_of_silent fun u hu => reports_nil hu
  | cons g gaps ih =>
    obtain ⟨hg, hgaps⟩ := List.forall_mem_cons.1 hgaps
    have hparity : (g :: gaps).length % 2 = 0 ↔ ¬ gaps.length % 2 = 0 := by rw [List.length_cons]; omega
    simp only [hparity, ite_not]
    refine ⟨fun h => ?settled, fun k h => ?pending⟩
    case settled =>
      exact (h.edge hdeb hpin level).append_of_silent fun t ht => (ht.ticks (n := g) (by omega)).append_of_silent fun u hu =>
        (ih hgaps (!level) u).2 _ ((Bool.not_not level).symm ▸ hu)
    case pending =>
      exact (h.edge hdeb hpin level).append_of_silent fun t ht => (ht.ticks hpin g).append_of_silent fun u hu => by
        simpa using (ih hgaps (!level) u).1 hu

end

/-- Settles O42: the burst starts at a settled pin. -/
theorem edgeBurstGivesOneEventOrNone : Obligations.EdgeBurstGivesOneEventOrNone := by
  intro pin first gaps quiet s hs hdeb hpin hidle hgaps hquiet
  obtain ⟨t, new, hrun, houtputs, hevents, -⟩ := (reports_edgeBurst hdeb hpin hquiet hgaps first s).1 ⟨hs, rfl, hidle⟩
  exact ⟨t, new, hrun, houtputs, hevents⟩

end Sys2Proof.Machine

/-! ### Read-out (spec/46_readout.md) -/

namespace Sys2Proof.Machine

/-! #### What was emitted before is read by no record, and the last status by `RD.REG 0x01` alone (R95, R230) -/

/-- `s` as it would be after another last status and with `past` emitted before its own outputs. -/
def withPast (st : CmdStatus → CmdStatus) (past : List Output) (s : State) : State :=
  { s with cmdStatus := st s.cmdStatus, outputs := past ++ s.outputs }

section
variable (st : CmdStatus → CmdStatus) (past : List Output) (s : State)

/-- Outputs appended after both pasts. -/
theorem withPast_append (new : List Output) :
    { withPast st past s with outputs := (withPast st past s).outputs ++ new } =
      withPast st past { s with outputs := s.outputs ++ new } := by
  simp only [withPast, List.append_assoc]

theorem emit_withPast (e : Output) : emit e (withPast st past s) = withPast st past (emit e s) := withPast_append st past s [e]

theorem transmit_withPast (kind : TxKind) (w : List Byte) :
    transmit kind w (withPast st past s) = withPast st past (transmit kind w s) :=
  emit_withPast st past { s with txBuf := s.txBuf.writeBytes 0 w, txLen := w.length, txKind := kind } _

theorem latch_withPast (w : List Byte) (r : ResCode × Half × Half) :
    latch w r (withPast st past s) = withPast st past (latch w r s) := by
  simp only [latch, withPast, List.append_assoc]

theorem startAssembly_withPast (total current : Byte) :
    startAssembly total current (withPast st past s) = withPast st past (startAssembly total current s) := by
  unfold startAssembly
  rw [apply_ite (withPast st past)]; rfl

theorem appendSegment_withPast (d : List Byte) :
    appendSegment d (withPast st past s) = withPast st past (appendSegment d s) := rfl

theorem advanceAssembly_withPast (total current : Byte) :
    advanceAssembly total current (withPast st past s) = withPast st past (advanceAssembly total current s) := by
  unfold advanceAssembly
  rw [apply_ite (withPast st past), ← emit_withPast]; rfl

theorem closeWindow_withPast : closeWindow (withPast st past s) = mapNext (withPast st past) (closeWindow s) := by
  have hread : (withPast st past s).rxWin.readBytes 0 (withPast st past s).rxCnt = s.rxWin.readBytes 0 s.rxCnt := rfl
  unfold closeWindow
  rw [hread]
  cases s.rxWin.readBytes 0 s.rxCnt with
  | none => rfl
  | some w => exact congrArg (fun t => Host.Outcome.next (emptyWindow t)) (latch_withPast st past s w _)

theorem confirmPin_withPast (p : Nat) : confirmPin (withPast st past s) p = withPast st past (confirmPin s p) := by
  unfold confirmPin
  rw [apply_ite (withPast st past)]
  exact congrArg (fun t => ite _ (clearPend p t) _) (withPast_append st past s _)

theorem debFire_withPast : debFire (withPast st past s) = withPast st past (debFire s) :=
  congrArg timerStop (List.foldl_hom (withPast st past) (fun t p => confirmPin_withPast st past t p))

theorem bounceEdge_withPast (p : Nat) : bounceEdge p (withPast st past s) = withPast st past (bounceEdge p s) := by
  unfold bounceEdge
  rw [apply_ite (withPast st past)]; rfl

theorem execEncExta_withPast (frameId ty : Byte) :
    execEncExta frameId ty (withPast st past s) = mapNext (withPast id past) (execEncExta frameId ty s) := by
  have hread : (withPast st past s).extBuf.readBytes 0 (withPast st past s).extLen = s.extBuf.readBytes 0 s.extLen := rfl
  unfold execEncExta
  rw [mapNext_ite, hread]
  show (if s.extDone = false then _ else _) = _
  congr 1
  cases s.extBuf.readBytes 0 s.extLen with
  | none => rfl
  | some w => dsimp only; rw [transmit_withPast]; rfl

theorem execExtSeg_withPast (total current : Byte) (d : List Byte) :
    execExtSeg total current d (withPast st past s) = mapNext (withPast id past) (execExtSeg total current d s) := by
  unfold execExtSeg
  simp only [mapNext_ite, startAssembly_withPast, appendSegment_withPast, advanceAssembly_withPast]
  rfl

theorem execRdBuf_withPast (sel : Byte) (idx : Half) :
    execRdBuf sel idx (withPast st past s) = mapNext (withPast id past) (execRdBuf sel idx s) := by
  have hbuf : bufferOf (withPast st past s) sel = bufferOf s sel := rfl
  unfold execRdBuf
  rw [hbuf]
  cases bufferOf s sel with
  | none => rfl
  | some b =>
    obtain ⟨m, len⟩ := b
    dsimp only
    rw [mapNext_ite]
    cases m.read idx.toNat with
    | none => rfl
    | some b => dsimp only; rw [emit_withPast]; rfl

/-- `CMD_STATUS` is the one register that shows the last status (R37). -/
theorem register_withPast {r : Byte} (hr : r ≠ 0x01#8) : register (withPast st past s) r = register s r := by
  have hr : r.toNat ≠ 1 := fun h => hr (BitVec.eq_of_toNat_eq h)
  unfold register
  generalize r.toNat = n at hr
  congr 1
  split
  case h_2 => exact absurd rfl hr
  all_goals rfl

theorem execRdReg_withPast {r : Byte} (hr : r ≠ 0x01#8) :
    execRdReg r (withPast st past s) = mapNext (withPast id past) (execRdReg r s) := by
  unfold execRdReg
  rw [register_withPast st past s hr]
  cases register s r with
  | none => rfl
  | some v => dsimp only; rw [emit_withPast]; rfl

theorem execEvTick_withPast : execEvTick (withPast st past s) = mapNext (withPast st past) (execEvTick s) := by
  have hreceive : tickReceive (countTick (withPast st past s)) = mapNext (withPast st past) (tickReceive (countTick s)) := by
    unfold tickReceive
    rw [mapNext_ite, ← closeWindow_withPast]; rfl
  have hdebounce : ∀ t, tickDebounce (withPast st past t) = mapNext (withPast st past) (tickDebounce t) := by
    intro t
    unfold tickDebounce
    rw [mapNext_ite, debFire_withPast]; rfl
  unfold execEvTick
  rw [hreceive, mapNext_andThen hdebounce]

theorem execEvEdge_withPast (pin : Byte) (level : Bool) :
    execEvEdge pin level (withPast st past s) = mapNext (withPast st past) (execEvEdge pin level s) := by
  unfold execEvEdge
  simp only [mapNext_ite, mapNext_next, ← bounceEdge_withPast]
  rfl

end

/-- The records that leave `cmd_status`: the events but reset (R24). -/
def keepsStatus : Instr → Bool
  | .evRxb _ | .evTick | .evEdge _ _ => true
  | _ => false

theorem keepsStatus_of_isCommand {i : Instr} (h : isCommand i = true) : keepsStatus i = false := by
  cases i with
  | evRxb a | evTick | evEdge pin level => cases h
  | _ => rfl

/-- An event does the same whatever was emitted before and whatever the last status, which it keeps. -/
theorem exec_withPast_of_keepsStatus {i : Instr} (hi : keepsStatus i = true) (st : CmdStatus → CmdStatus) (past : List Output)
    (s : State) : exec i (withPast st past s) = mapNext (withPast st past) (exec i s) := by
  cases i with
  | evRxb a => simp only [exec, execEvRxb, mapNext_ite]; rfl
  | evTick => exact execEvTick_withPast st past s
  | evEdge pin level => exact execEvEdge_withPast st past s pin level
  | _ => cases hi

/-- A record that writes the status does the same whatever the last one was, and forgets it. -/
theorem exec_withPast_of_writesStatus {i : Instr} (hi : keepsStatus i = false) (hr : i ≠ .rdReg 0x01#8)
    (st : CmdStatus → CmdStatus) (past : List Output) (s : State) :
    exec i (withPast st past s) = mapNext (withPast id past) (exec i s) := by
  cases i with
  | evRxb a | evTick | evEdge pin level => cases hi
  | encShort id ty d => simp only [exec, execEncShort, mapNext_ite, transmit_withPast]; rfl
  | encExt id ty d => simp only [exec, execEncExt, mapNext_ite, transmit_withPast]; rfl
  | encExta id ty => exact execEncExta_withPast st past s id ty
  | encAck => simp only [exec, execEncAck, transmit_withPast]; rfl
  | encNack => exact congrArg complete (transmit_withPast st past { s with nackReq := false } .nack nackBytes)
  | decShort d => exact congrArg complete (latch_withPast st past s d (decodeShort s.params d))
  | extSeg total current d => exact execExtSeg_withPast st past s total current d
  | rdReg r => exact execRdReg_withPast st past s fun h => hr (congrArg _ h)
  | rdBuf sel idx => exact execRdBuf_withPast st past s sel idx
  | crcClr | crcByte a | crcBlk d | rxClr | evReset => rfl

/-- A change of the state before a sequence's second half is another change after it. -/
theorem andThen_mapNext_of_commutes {f g : State → State} {k : State → Result} (h : ∀ t, k (f t) = mapNext g (k t)) (r : Result) :
    andThen (mapNext f r) k = mapNext g (andThen r k) := by
  cases r with
  | next t => exact h t
  | fault e => rfl
  | refused e => rfl

/-- A sequence that does not read the status register does the same whatever the last status and the outputs before it were, and its
first record that writes the status forgets the last one. -/
theorem execSeq_withPast {is : List Instr} (hr : ∀ i ∈ is, i ≠ .rdReg 0x01#8) (st : CmdStatus → CmdStatus) (past : List Output)
    (s : State) : execSeq is (withPast st past s) =
      mapNext (withPast (if is.all keepsStatus then st else id) past) (execSeq is s) := by
  induction is generalizing st s with
  | nil => rfl
  | cons i is ih =>
    obtain ⟨hi, his⟩ := List.forall_mem_cons.1 hr
    rw [execSeq_cons, execSeq_cons, List.all_cons]
    cases hk : keepsStatus i with
    | true =>
      rw [exec_withPast_of_keepsStatus hk, Bool.true_and]
      exact andThen_mapNext_of_commutes (ih his st) _
    | false =>
      rw [exec_withPast_of_writesStatus hk hi, Bool.false_and]
      exact andThen_mapNext_of_commutes (fun t => by simpa using ih his id t) _

theorem execSeq_singleton (i : Instr) (s : State) : execSeq [i] s = exec i s := by
  rw [execSeq_cons]; cases exec i s <;> rfl

/-- What a sequence that does not read the status register does, it does after any status and any outputs. -/
theorem execSeq_from {is : List Instr} (hr : ∀ i ∈ is, i ≠ .rdReg 0x01#8) {s t : State} (h : execSeq is s = .next t) :
    ∃ new, t.outputs = s.outputs ++ new ∧ ∀ c o, execSeq is { s with cmdStatus := c, outputs := o } =
      .next { t with cmdStatus := if is.all keepsStatus then c else t.cmdStatus, outputs := o ++ new } := by
  have hpast : ∀ st past, execSeq is { s with cmdStatus := st s.cmdStatus, outputs := past } =
      mapNext (withPast (if is.all keepsStatus then st else id) past) (execSeq is { s with outputs := [] }) := fun st past => by
    rw [← execSeq_withPast hr, withPast, List.append_nil]
  obtain ⟨quiet, hquiet, ht⟩ := andThen_eq_next ((hpast id s.outputs).symm.trans h)
  rw [ite_self] at ht
  cases ht
  refine ⟨quiet.outputs, rfl, fun c o => ?_⟩
  rw [hpast (fun _ => c) o, hquiet, mapNext_next, withPast]
  split <;> rfl

/-! #### A read writes `cmd_status` and its own output alone (R230) -/

/-- The read commands (R230). -/
abbrev IsRead (i : Instr) : Prop := (∃ r, i = .rdReg r) ∨ (∃ sel idx, i = .rdBuf sel idx)

theorem IsRead.exec_next {i : Instr} {s t : State} (hi : IsRead i) (h : exec i s = .next t) :
    ∃ c own, own.length ≤ 1 ∧ t = { s with cmdStatus := c, outputs := s.outputs ++ own } := by
  have hfail : ∀ c, setStatus c s = { s with cmdStatus := c, outputs := s.outputs ++ [] } := fun c => by
    rw [List.append_nil]; rfl
  obtain ⟨r, rfl⟩ | ⟨sel, idx, rfl⟩ := hi
  · rcases execRdReg_next h with ⟨_, rfl⟩ | ⟨v, _, rfl⟩
    · exact ⟨.badReg, [], Nat.zero_le 1, hfail _⟩
    · exact ⟨.ok, [.read v], Nat.le_refl 1, rfl⟩
  · rcases execRdBuf_next h with ⟨_, rfl⟩ | ⟨_, _, _, _, rfl⟩ | ⟨_, _, b, _, _, _, rfl⟩
    · exact ⟨.badReg, [], Nat.zero_le 1, hfail _⟩
    · exact ⟨.badIndex, [], Nat.zero_le 1, hfail _⟩
    · exact ⟨.ok, [.read (b.setWidth 32)], Nat.le_refl 1, rfl⟩

/-- Settles O48: the read leaves another status and its own output, and the sequence does the same after them. -/
theorem insertedReadChangesNothingElse : Obligations.InsertedReadChangesNothingElse := by
  intro r is s u t hread hr hu ht
  obtain ⟨c, own, -, rfl⟩ := IsRead.exec_next hread hu
  obtain ⟨new, hnew, hfrom⟩ := execSeq_from hr ht
  refine ⟨_, own, new, hfrom c (s.outputs ++ own), rfl, rfl, hnew, rfl, ?status⟩
  case status =>
    rintro ⟨i, hi, hcommand⟩
    exact if_neg fun hall => Bool.false_ne_true ((keepsStatus_of_isCommand hcommand).symm.trans (List.all_eq_true.1 hall i hi))

/-- Settles O47: the read's second run starts after its own status and output, and does the same. -/
theorem readsAreIdempotent : Obligations.ReadsAreIdempotent := by
  intro i s t hi h
  have hr : ∀ j ∈ [i], j ≠ .rdReg 0x01#8 := by
    rw [List.forall_mem_singleton]
    rcases hi with ⟨r, rfl, hne⟩ | ⟨sel, idx, rfl⟩
    · exact fun hreg => hne (Instr.rdReg.inj hreg)
    · nofun
  rw [← execSeq_singleton] at h
  obtain ⟨new, hnew, hfrom⟩ := execSeq_from hr h
  rw [execSeq_singleton] at h
  obtain ⟨c, own, hlen, rfl⟩ := IsRead.exec_next (hi.imp_left fun ⟨r, hir, _⟩ => ⟨r, hir⟩) h
  obtain rfl : own = new := List.append_cancel_left hnew
  refine ⟨rfl, own, hlen, rfl, ?again⟩
  rw [← execSeq_singleton, hfrom c, ite_self]

/-! #### Registers (R37, R231) -/

theorem setWidth_ofNat (w n : Nat) : (BitVec.ofNat w n).setWidth 32 = BitVec.ofNat 32 (n % 2 ^ w) := by
  rw [← BitVec.ofNat_toNat, BitVec.toNat_ofNat]

theorem flagAt_eq (b : Bool) (i : Nat) : flagAt b i = BitVec.ofNat 32 (2 ^ i * b.toNat) := by
  apply BitVec.eq_of_toNat_eq
  cases b <;> simp [flagAt, Nat.shiftLeft_eq]

/-- A one-bit field above the fields in `n` is a summand. -/
theorem ofNat_or_flagAt (b : Bool) {n i : Nat} (h : n < 2 ^ i) :
    BitVec.ofNat 32 n ||| flagAt b i = BitVec.ofNat 32 (n + 2 ^ i * b.toNat) := by
  rw [flagAt_eq, ← BitVec.ofNat_or, Nat.or_comm, ← Nat.two_pow_add_eq_or_of_lt h, Nat.add_comm]

theorem resStatusReg_eq (s : State) : resStatusReg s =
    BitVec.ofNat 32 ((resultCode s.resCode).toNat + 16 * s.resValid.toNat + 32 * s.resLost.toNat + 64 * s.nackReq.toNat) := by
  have hcode : (resultCode s.resCode).toNat < 2 ^ 4 := (resultCode s.resCode).isLt
  have hvalid := s.resValid.toNat_le
  have hlost := s.resLost.toNat_le
  rw [resStatusReg, ← BitVec.ofNat_toNat, ofNat_or_flagAt _ hcode, ofNat_or_flagAt _ (by omega), ofNat_or_flagAt _ (by omega)]
  rfl

theorem rxStateReg_eq (s : State) : rxStateReg s = BitVec.ofNat 32 (s.rxCnt % 2 ^ 9 + 512 * s.rxOvf.toNat) := by
  rw [rxStateReg, setWidth_ofNat, ofNat_or_flagAt _ (Nat.mod_lt _ (by decide))]; rfl

theorem extStatusReg_eq (s : State) : extStatusReg s = BitVec.ofNat 32 (s.extAsm.toNat + 2 * s.extDone.toNat) := by
  rw [extStatusReg, flagAt_eq _ 0, Nat.pow_zero, Nat.one_mul, ofNat_or_flagAt _ s.extAsm.toNat_lt]; rfl

/-- The numbers above 0x16 are reserved (R231). -/
theorem register_of_gt {s : State} {r : Byte} (hr : 0x17 ≤ r.toNat) : register s r = none := if_pos (.inl hr)

/-- A read of a register that exists (R231). -/
theorem execRdReg_of_some {s : State} {r : Byte} {v : Word} (h : register s r = some v) :
    execRdReg r s = .next { s with cmdStatus := .ok, outputs := s.outputs ++ [.read v] } := by
  unfold execRdReg; rw [h]; rfl

/-- Settles O44: each register of the table is the number that its fields add up to. -/
theorem rdRegReadsEveryRegister : Obligations.RdRegReadsEveryRegister := by
  refine fun s => ⟨fun x hx => execRdReg_of_some ?fields, fun hdeb x hx => execRdReg_of_some ?debFields, fun r hr => ?reserved⟩
  case fields =>
    revert x
    simp [register, resStatusReg_eq, rxStateReg_eq, extStatusReg_eq, setWidth_ofNat]
  case debFields =>
    revert x
    simp [register, hdeb, flagAt_eq]
  case reserved =>
    rcases hr with hgt | ⟨hge, habsent⟩
    · exact execRdReg_of_none (register_of_gt hgt)
    · exact execRdReg_of_none (register_of_debAbsent habsent hge)

/-! #### Buffers (R232) -/

theorem execRdBuf_of_noBuffer {s : State} {sel : Byte} (h : bufferOf s sel = none) (idx : Half) :
    execRdBuf sel idx s = .next (setStatus .badReg s) := by
  unfold execRdBuf; rw [h]; rfl

section
variable {s : State} {sel : Byte} {idx : Half} {m : Memory} {n : Nat} (h : bufferOf s sel = some (m, n))
include h

theorem execRdBuf_of_ge (hidx : ¬ idx.toNat < n) : execRdBuf sel idx s = .next (setStatus .badIndex s) := by
  unfold execRdBuf; rw [h]; exact if_neg hidx

theorem execRdBuf_of_lt (hidx : idx.toNat < n) {b : Byte} (hb : m.read idx.toNat = some b) :
    execRdBuf sel idx s = .next { s with cmdStatus := .ok, outputs := s.outputs ++ [.read (BitVec.ofNat 32 b.toNat)] } := by
  unfold execRdBuf; rw [h, BitVec.ofNat_toNat]; dsimp only; rw [if_pos hidx, hb]; rfl

end

/-- The selectors above 3 name no buffer (R232). -/
theorem bufferOf_of_gt {s : State} {sel : Byte} (h : 3 < sel.toNat) : bufferOf s sel = none := by
  unfold bufferOf
  split
  case h_5 => rfl
  all_goals omega

/-- Settles O46: a selector up to 3 names its buffer with the length below which it is readable. -/
theorem rdBufReadsBelowTheLength : Obligations.RdBufReadsBelowTheLength := by
  intro sel idx s buf readable
  have hbuf : sel.toNat ≤ 3 → ∃ n, bufferOf s sel = some (buf, n) ∧ (idx.toNat < n ↔ readable) := fun hsel => by
    interval_cases hk : sel.toNat
    · by_cases hok : s.resCode = .frameOk <;> simp [bufferOf, buf, readable, hk, hok]
    all_goals simp [bufferOf, buf, readable, hk]
  refine ⟨fun hsel => execRdBuf_of_noBuffer (bufferOf_of_gt hsel) idx, fun hsel hpast => ?past, fun hsel hread b hb => ?read⟩
  · obtain ⟨n, hn, hlen⟩ := hbuf hsel
    exact execRdBuf_of_ge hn (mt hlen.1 hpast)
  · obtain ⟨n, hn, hlen⟩ := hbuf hsel
    exact execRdBuf_of_lt hn (hlen.2 hread) hb
end Sys2Proof.Machine

/-! ### The exceptions (spec/60_exceptions.md) -/

namespace Sys2Proof.Machine

/-! #### The gap (R263) -/

/-- Settles O33: the window has a value at every byte, so the runs of fewer than `P_T_GAP` ticks and of exactly `P_T_GAP` ticks are
those of an open and of a closing window. -/
theorem windowClosesAtTheGapAndNotBefore : Obligations.WindowClosesAtTheGapAndNotBefore := by
  intro s hwf hvalued hopen hlast
  obtain ⟨_, _, _, ⟨hpos, hgap⟩, _⟩ := hwf
  obtain ⟨w, hw⟩ := holds_of_valuedBelow hvalued
  refine ⟨fun k hk => ?before, ?closing⟩
  case before =>
    obtain ⟨_, hrun, _, _, _, rfl⟩ := execSeq_evTick_open hlast hgap hk
    exact ⟨_, hrun, rfl, rfl, rfl, rfl⟩
  case closing =>
    obtain ⟨_, hrun, _, _, _, rfl⟩ := execSeq_evTick_close hlast hgap hw hopen hpos
    exact ⟨_, hrun, rfl, rfl, hw.1, rfl⟩

/-! #### How a record ends (R253, R254) -/

/-- The error codes that a record can end in (R253). -/
def failureCodes : Instr → List CmdStatus
  | .encShort _ _ _ | .encExt _ _ _ => [.encLen]
  | .encExta _ _ => [.extNotReady]
  | .extSeg _ _ _ => [.extHdr, .extSeq, .extOvf]
  | .rdReg _ => [.badReg]
  | .rdBuf _ _ => [.badReg, .badIndex]
  | _ => []

/-- What a failing command leaves of `s`, the status apart: all of it, but `EXT.SEG` discards the assembly (R182, R254). -/
def afterFailure : Instr → State → State
  | .extSeg _ _ _, s => extAbort s
  | _, s => s

/-- A record that writes `cmd_status` completes, or fails with one of its codes and changes nothing else (R253, R254). -/
theorem exec_completes_or_fails {i : Instr} {s t : State} (hi : keepsStatus i = false) (h : exec i s = .next t) :
    t.cmdStatus = .ok ∨ ∃ c ∈ failureCodes i, t = setStatus c (afterFailure i s) := by
  cases i with
  | evRxb a | evTick | evEdge pin level => cases hi
  | encShort id ty d =>
    rcases execEncShort_next h with ⟨_, rfl⟩ | ⟨_, _, rfl⟩
    · exact .inr ⟨.encLen, by simp [failureCodes], rfl⟩
    · exact .inl rfl
  | encExt id ty d =>
    rcases execEncExt_next h with ⟨_, rfl⟩ | ⟨_, rfl⟩
    · exact .inr ⟨.encLen, by simp [failureCodes], rfl⟩
    · exact .inl rfl
  | encExta id ty =>
    rcases execEncExta_next h with ⟨_, rfl⟩ | ⟨_, _, _, rfl⟩
    · exact .inr ⟨.extNotReady, by simp [failureCodes], rfl⟩
    · exact .inl rfl
  | extSeg total current d =>
    rcases execExtSeg_next h with ⟨_, rfl⟩ | ⟨_, _, rfl⟩ | ⟨_, _, _, rfl⟩ | ⟨_, _, _, rfl⟩
    · exact .inr ⟨.extHdr, by simp [failureCodes], rfl⟩
    · exact .inr ⟨.extSeq, by simp [failureCodes], rfl⟩
    · exact .inr ⟨.extOvf, by simp [failureCodes], congrArg (setStatus .extOvf) (extAbort_startAssembly total current s)⟩
    · exact .inl rfl
  | rdReg r =>
    rcases execRdReg_next h with ⟨_, rfl⟩ | ⟨_, _, rfl⟩
    · exact .inr ⟨.badReg, by simp [failureCodes], rfl⟩
    · exact .inl rfl
  | rdBuf sel idx =>
    rcases execRdBuf_next h with ⟨_, rfl⟩ | ⟨_, _, _, _, rfl⟩ | ⟨_, _, _, _, _, _, rfl⟩
    · exact .inr ⟨.badReg, by simp [failureCodes], rfl⟩
    · exact .inr ⟨.badIndex, by simp [failureCodes], rfl⟩
    · exact .inl rfl
  | crcClr | crcByte a | crcBlk d | encAck | encNack | decShort d | rxClr | evReset => cases h; exact .inl rfl

/-- The status that a record ends in, if it writes it at all (R253). -/
theorem exec_cmdStatus_mem {i : Instr} {s t : State} (hi : keepsStatus i = false) (h : exec i s = .next t) :
    t.cmdStatus ∈ .ok :: failureCodes i := by
  rcases exec_completes_or_fails hi h with hok | ⟨c, hc, rfl⟩
  · exact hok ▸ List.mem_cons_self
  · exact List.mem_cons_of_mem _ hc

/-- The frame of an event other than reset does not name the status (R24). -/
theorem exec_cmdStatus_of_keepsStatus {i : Instr} {s t : State} (hi : keepsStatus i = true) (h : exec i s = .next t) :
    t.cmdStatus = s.cmdStatus := by
  rw [exec_frame h]
  cases i with
  | evRxb a | evTick | evEdge pin level => rfl
  | _ => cases hi

/-- Settles O55: an event's frame names no status, and every other record ends in a code of its list. -/
theorem eachRecordEndsInItsStatusCodes : Obligations.EachRecordEndsInItsStatusCodes := by
  intro i s t h
  cases i with
  | evRxb a | evTick | evEdge pin level => exact exec_cmdStatus_of_keepsStatus rfl h
  | _ => simpa [failureCodes] using exec_cmdStatus_mem rfl h

/-- Settles O56: a command that did not complete wrote its status, and only `EXT.SEG` its assembly too. -/
theorem failuresArePrecise : Obligations.FailuresArePrecise := by
  intro i s t hcommand h hfailed
  obtain ⟨c, _, rfl⟩ := (exec_completes_or_fails (keepsStatus_of_isCommand hcommand) h).resolve_left hfailed
  cases i with
  | extSeg total current d => exact .inr ⟨⟨total, current, d, rfl⟩, rfl⟩
  | _ => exact .inl rfl

end Sys2Proof.Machine
